-- ==== Sys2Proof/Word.lean ====
section
/-! DEFINITION. The two word types of the machine (spec/00_scope.md R6: XLEN = 8, ALEN = 16; R7: a byte is 8 bits,
a word 16). Their plainest arithmetic is that of `BitVec`: `+` and `-` wrap. -/

namespace Sys2Proof

/-- A byte: the width of A, X, Y, SP and of the data bus (R6, `XLEN`). -/
abbrev Byte := BitVec 8

/-- A bus address, and the width of PC (R6, `ALEN`). -/
abbrev Addr := BitVec 16

end Sys2Proof
end

