-- ==== Sys2Proof/Machine/Bits.lean ====
section
/-! DEFINITION. Bit fields, extension and byte order (spec/00_scope.md R7, R8; spec/20_memory.md R64). -/

namespace Sys2Proof.Machine

/-- `lo(w) = w[7:0]` (R7). -/
def lo (w : Addr) : Byte := w.extractLsb' 0 8

/-- `hi(w) = w[15:8]` (R7). -/
def hi (w : Addr) : Byte := w.extractLsb' 8 8

/-- `page(w) = w[15:8]` (R7). -/
def page (w : Addr) : Byte := hi w

/-- The word `{h, l}`, `h` in the high bits (R7, R62). -/
def mkWord (h l : Byte) : Addr := h ++ l

/-- `zext_16` (R8). -/
def zext16 (b : Byte) : Addr := b.setWidth 16

/-- `sext_16` (R8): `b` if `b[7] = 0`, else `b + 0xFF00`. -/
def sext16 (b : Byte) : Addr := b.signExtend 16

/-- Byte `k` of a number laid out with its lowest byte first. -/
def byteOfNat (w k : Nat) : Byte := BitVec.ofNat 8 (w >>> (8 * k))

end Sys2Proof.Machine
end

