-- ==== Sys2Proof/Config.lean ====
section
/-! DEFINITION. The constants of CORE (spec/00_scope.md R6) and the free values the spec leaves to devices outside it
(spec/20_memory.md R73). A free value is an opaque constant: nothing can evaluate it, so a claim holds whatever it is. -/

namespace Sys2Proof.Config

/-- `RAM_SIZE` (R6). -/
def ramSize : Nat := 2048

/-- The first address RAM does not claim (R49: RAM claims `address < 0x2000`). -/
def ramEnd : Addr := 0x2000#16

/-- The mask that maps a RAM address to its cell (R48). -/
def ramMask : Addr := 0x7FF#16

/-- `PRG_BANK` (R6): the bytes of one PRG bank. -/
def prgBank : Nat := 16384

/-- `CHR_BANK` (R6): the bytes of one CHR bank. -/
def chrBank : Nat := 8192

/-- The first address MAPPER claims (R56: MAPPER claims `address >= 0x8000`). -/
def prgStart : Addr := 0x8000#16

/-- The mask that mirrors a single PRG bank (R57). -/
def prgMirrorMask : Addr := 0x3FFF#16

/-- `RESET_VECTOR` (R6, R242). -/
def resetVector : Addr := 0xFFFC#16

/-- `BRK_VECTOR` (R6, R212). -/
def brkVector : Addr := 0xFFFE#16

/-- `STACK_PAGE` (R6, R13): the high byte of a stack address. -/
def stackPage : Byte := 0x01#8

/-- `RESET_SP` (R6, R241). -/
def resetSp : Byte := 0xFF#8

/-- The value of a read no device claims (R44). -/
def openBus : Byte := 0x00#8

/-- Which read of a step a bus read is (R126). A step makes at most one read of each kind through an address an extra
device may claim, so the pair of `State.tick` and slot numbers every such read of a run (log 6). -/
inductive ReadSlot where
  | opcode | operandLow | operandHigh | pointerLow | pointerHigh | operand | stack | vectorLow | vectorHigh | host
  deriving DecidableEq, Repr

/-- FREE VALUE (R73, U6; log 6): the byte an extra device returns. -/
opaque deviceRead : Nat → ReadSlot → Addr → Byte

/-- FREE VALUE (R73; log 6): whether an extra device's write raises. -/
opaque deviceWriteFails : Nat → Addr → Byte → Bool

end Sys2Proof.Config
end

