-- ==== Sys2Proof/Syntax.lean ====
section
/-! DEFINITION. The syntax: the 56 mnemonics (spec/30_encoding.md R89, R94), the 13 addressing modes (spec/00_scope.md R9),
the operand shapes (R84), the opcode table's entries (R87) and the ONE inductive `Instr`, a constructor for each row of
spec/opcode_table.json. -/

namespace Sys2Proof

/-- The closed enumeration of mnemonics (R89, R94). -/
inductive Mnemonic where
  | lda | ldx | ldy | sta | stx | sty | tax | tay | txa | tya | tsx | txs
  | adc | sbc | and | ora | eor | cmp | cpx | cpy | bit | inc | dec | inx
  | iny | dex | dey | asl | lsr | rol | ror | jmp | jsr | rts | bcc | bcs
  | beq | bmi | bne | bpl | bvc | bvs | pha | php | pla | plp | clc | sec
  | cli | sei | cld | sed | clv | nop | brk | rti
  deriving DecidableEq, Repr

/-- The 13 addressing modes (R9). -/
inductive Mode where
  | acc | abs | abx | aby | imm | imp | ind | izx | izy | rel | zp | zpx | zpy
  deriving DecidableEq, Repr

/-- The instruction length a mode requires (R88; formats F1, F2, F3 of R81 to R83). -/
def Mode.length : Mode → Nat
  | .acc | .imp => 1
  | .imm | .zp | .zpx | .zpy | .izx | .izy | .rel => 2
  | .abs | .abx | .aby | .ind => 3

/-- The cycle modifier of an entry (R87). -/
inductive Modifier where
  | none | pageCross | branch
  deriving DecidableEq, Repr

/-- One entry of the opcode table, with the byte it stands under (R87). -/
structure Entry where
  opcode     : Byte
  mnemonic   : Mnemonic
  mode       : Mode
  length     : Nat
  baseCycles : Nat
  modifier   : Modifier
  deriving DecidableEq, Repr

/-- An opcode table (R87): a partial map from the opcode byte to an entry, written as its list of rows. -/
abbrev OpcodeTable := List Entry

/-- `lookup` (R88): a pure function over the table; `none` is a lookup miss. -/
def OpcodeTable.lookup (t : OpcodeTable) (op : Byte) : Option Entry :=
  t.find? (fun e => e.opcode == op)

/-- A memory operand: one of the eight modes whose effective address is read or written through (R84, R109 to R111,
R115, R116, R118 to R120), with its operand bytes. -/
inductive MemOperand where
  | zp (zp : Byte) | zpx (zp : Byte) | zpy (zp : Byte)
  | abs (w : Addr) | abx (w : Addr) | aby (w : Addr)
  | izx (zp : Byte) | izy (zp : Byte)
  deriving DecidableEq, Repr

/-- The operand of an instruction: its mode together with the operand bytes (R84). -/
inductive Operand where
  | acc | imp
  | imm (v : Byte)
  | mem (m : MemOperand)
  | ind (w : Addr)
  | rel (off : Byte)
  deriving DecidableEq, Repr

/-- The addressing mode of a memory operand. -/
def MemOperand.mode : MemOperand → Mode
  | .zp _ => .zp | .zpx _ => .zpx | .zpy _ => .zpy
  | .abs _ => .abs | .abx _ => .abx | .aby _ => .aby
  | .izx _ => .izx | .izy _ => .izy

/-- The addressing mode of an operand. -/
def Operand.mode : Operand → Mode
  | .acc => .acc | .imp => .imp | .imm _ => .imm
  | .mem m => m.mode
  | .ind _ => .ind | .rel _ => .rel

/-- The instructions: one constructor for each row of spec/opcode_table.json, with the row's operand bytes. A 16-bit
operand is the word `b2 : b1` of R83. -/
inductive Instr where
  -- Loads (spec/41_load_store_transfer.md R130 to R132).
  | ldaImm (v : Byte) | ldaZp (zp : Byte) | ldaZpx (zp : Byte) | ldaAbs (w : Addr) | ldaAbx (w : Addr) | ldaAby (w : Addr) | ldaIzx (zp : Byte) | ldaIzy (zp : Byte)
  | ldxImm (v : Byte) | ldxZp (zp : Byte) | ldxZpy (zp : Byte) | ldxAbs (w : Addr) | ldxAby (w : Addr)
  | ldyImm (v : Byte) | ldyZp (zp : Byte) | ldyZpx (zp : Byte) | ldyAbs (w : Addr) | ldyAbx (w : Addr)
  -- Stores (R133 to R135).
  | staZp (zp : Byte) | staZpx (zp : Byte) | staAbs (w : Addr) | staAbx (w : Addr) | staAby (w : Addr) | staIzx (zp : Byte) | staIzy (zp : Byte)
  | stxZp (zp : Byte) | stxZpy (zp : Byte) | stxAbs (w : Addr)
  | styZp (zp : Byte) | styZpx (zp : Byte) | styAbs (w : Addr)
  -- Register transfers (R136 to R141).
  | tax
  | tay
  | txa
  | tya
  | tsx
  | txs
  -- Add and subtract (spec/42_arithmetic_logic.md R150, R151).
  | adcImm (v : Byte) | adcZp (zp : Byte) | adcZpx (zp : Byte) | adcAbs (w : Addr) | adcAbx (w : Addr) | adcAby (w : Addr) | adcIzx (zp : Byte) | adcIzy (zp : Byte)
  | sbcImm (v : Byte) | sbcZp (zp : Byte) | sbcZpx (zp : Byte) | sbcAbs (w : Addr) | sbcAbx (w : Addr) | sbcAby (w : Addr) | sbcIzx (zp : Byte) | sbcIzy (zp : Byte)
  -- Logic (R152 to R154).
  | andImm (v : Byte) | andZp (zp : Byte) | andZpx (zp : Byte) | andAbs (w : Addr) | andAbx (w : Addr) | andAby (w : Addr) | andIzx (zp : Byte) | andIzy (zp : Byte)
  | oraImm (v : Byte) | oraZp (zp : Byte) | oraZpx (zp : Byte) | oraAbs (w : Addr) | oraAbx (w : Addr) | oraAby (w : Addr) | oraIzx (zp : Byte) | oraIzy (zp : Byte)
  | eorImm (v : Byte) | eorZp (zp : Byte) | eorZpx (zp : Byte) | eorAbs (w : Addr) | eorAbx (w : Addr) | eorAby (w : Addr) | eorIzx (zp : Byte) | eorIzy (zp : Byte)
  -- Compare and bit test (R155 to R158).
  | cmpImm (v : Byte) | cmpZp (zp : Byte) | cmpZpx (zp : Byte) | cmpAbs (w : Addr) | cmpAbx (w : Addr) | cmpAby (w : Addr) | cmpIzx (zp : Byte) | cmpIzy (zp : Byte)
  | cpxImm (v : Byte) | cpxZp (zp : Byte) | cpxAbs (w : Addr)
  | cpyImm (v : Byte) | cpyZp (zp : Byte) | cpyAbs (w : Addr)
  | bitZp (zp : Byte) | bitAbs (w : Addr)
  -- Increment and decrement (R159 to R164).
  | incZp (zp : Byte) | incZpx (zp : Byte) | incAbs (w : Addr) | incAbx (w : Addr)
  | decZp (zp : Byte) | decZpx (zp : Byte) | decAbs (w : Addr) | decAbx (w : Addr)
  | inx
  | iny
  | dex
  | dey
  -- Shifts and rotates (spec/43_shift_rotate.md R170 to R173).
  | aslAcc | aslZp (zp : Byte) | aslZpx (zp : Byte) | aslAbs (w : Addr) | aslAbx (w : Addr)
  | lsrAcc | lsrZp (zp : Byte) | lsrZpx (zp : Byte) | lsrAbs (w : Addr) | lsrAbx (w : Addr)
  | rolAcc | rolZp (zp : Byte) | rolZpx (zp : Byte) | rolAbs (w : Addr) | rolAbx (w : Addr)
  | rorAcc | rorZp (zp : Byte) | rorZpx (zp : Byte) | rorAbs (w : Addr) | rorAbx (w : Addr)
  -- Jumps and subroutines (spec/44_control_flow.md R180 to R182).
  | jmpAbs (w : Addr) | jmpInd (w : Addr)
  | jsr (w : Addr)
  | rts
  -- Branches (R183 to R191).
  | bcc (off : Byte)
  | bcs (off : Byte)
  | beq (off : Byte)
  | bmi (off : Byte)
  | bne (off : Byte)
  | bpl (off : Byte)
  | bvc (off : Byte)
  | bvs (off : Byte)
  -- Stack (spec/45_stack_flags_system.md R200 to R203).
  | pha
  | php
  | pla
  | plp
  -- Flags (R204 to R210).
  | clc
  | sec
  | cli
  | sei
  | cld
  | sed
  | clv
  -- No operation and system (R211 to R213).
  | nop
  | brk
  | rti
  deriving DecidableEq, Repr

/-- The mnemonic of an instruction's row. -/
def Instr.mnemonic : Instr → Mnemonic
  | .ldaImm _ | .ldaZp _ | .ldaZpx _ | .ldaAbs _ | .ldaAbx _ | .ldaAby _ | .ldaIzx _ | .ldaIzy _ => .lda
  | .ldxImm _ | .ldxZp _ | .ldxZpy _ | .ldxAbs _ | .ldxAby _ => .ldx
  | .ldyImm _ | .ldyZp _ | .ldyZpx _ | .ldyAbs _ | .ldyAbx _ => .ldy
  | .staZp _ | .staZpx _ | .staAbs _ | .staAbx _ | .staAby _ | .staIzx _ | .staIzy _ => .sta
  | .stxZp _ | .stxZpy _ | .stxAbs _ => .stx
  | .styZp _ | .styZpx _ | .styAbs _ => .sty
  | .tax => .tax
  | .tay => .tay
  | .txa => .txa
  | .tya => .tya
  | .tsx => .tsx
  | .txs => .txs
  | .adcImm _ | .adcZp _ | .adcZpx _ | .adcAbs _ | .adcAbx _ | .adcAby _ | .adcIzx _ | .adcIzy _ => .adc
  | .sbcImm _ | .sbcZp _ | .sbcZpx _ | .sbcAbs _ | .sbcAbx _ | .sbcAby _ | .sbcIzx _ | .sbcIzy _ => .sbc
  | .andImm _ | .andZp _ | .andZpx _ | .andAbs _ | .andAbx _ | .andAby _ | .andIzx _ | .andIzy _ => .and
  | .oraImm _ | .oraZp _ | .oraZpx _ | .oraAbs _ | .oraAbx _ | .oraAby _ | .oraIzx _ | .oraIzy _ => .ora
  | .eorImm _ | .eorZp _ | .eorZpx _ | .eorAbs _ | .eorAbx _ | .eorAby _ | .eorIzx _ | .eorIzy _ => .eor
  | .cmpImm _ | .cmpZp _ | .cmpZpx _ | .cmpAbs _ | .cmpAbx _ | .cmpAby _ | .cmpIzx _ | .cmpIzy _ => .cmp
  | .cpxImm _ | .cpxZp _ | .cpxAbs _ => .cpx
  | .cpyImm _ | .cpyZp _ | .cpyAbs _ => .cpy
  | .bitZp _ | .bitAbs _ => .bit
  | .incZp _ | .incZpx _ | .incAbs _ | .incAbx _ => .inc
  | .decZp _ | .decZpx _ | .decAbs _ | .decAbx _ => .dec
  | .inx => .inx
  | .iny => .iny
  | .dex => .dex
  | .dey => .dey
  | .aslAcc | .aslZp _ | .aslZpx _ | .aslAbs _ | .aslAbx _ => .asl
  | .lsrAcc | .lsrZp _ | .lsrZpx _ | .lsrAbs _ | .lsrAbx _ => .lsr
  | .rolAcc | .rolZp _ | .rolZpx _ | .rolAbs _ | .rolAbx _ => .rol
  | .rorAcc | .rorZp _ | .rorZpx _ | .rorAbs _ | .rorAbx _ => .ror
  | .jmpAbs _ | .jmpInd _ => .jmp
  | .jsr _ => .jsr
  | .rts => .rts
  | .bcc _ => .bcc
  | .bcs _ => .bcs
  | .beq _ => .beq
  | .bmi _ => .bmi
  | .bne _ => .bne
  | .bpl _ => .bpl
  | .bvc _ => .bvc
  | .bvs _ => .bvs
  | .pha => .pha
  | .php => .php
  | .pla => .pla
  | .plp => .plp
  | .clc => .clc
  | .sec => .sec
  | .cli => .cli
  | .sei => .sei
  | .cld => .cld
  | .sed => .sed
  | .clv => .clv
  | .nop => .nop
  | .brk => .brk
  | .rti => .rti

/-- The operand of an instruction: its row's mode with the operand bytes. -/
def Instr.operand : Instr → Operand
  | .ldaImm v => .imm v | .ldaZp zp => .mem (.zp zp) | .ldaZpx zp => .mem (.zpx zp)
  | .ldaAbs w => .mem (.abs w) | .ldaAbx w => .mem (.abx w) | .ldaAby w => .mem (.aby w)
  | .ldaIzx zp => .mem (.izx zp) | .ldaIzy zp => .mem (.izy zp)
  | .ldxImm v => .imm v | .ldxZp zp => .mem (.zp zp) | .ldxZpy zp => .mem (.zpy zp)
  | .ldxAbs w => .mem (.abs w) | .ldxAby w => .mem (.aby w)
  | .ldyImm v => .imm v | .ldyZp zp => .mem (.zp zp) | .ldyZpx zp => .mem (.zpx zp)
  | .ldyAbs w => .mem (.abs w) | .ldyAbx w => .mem (.abx w)
  | .staZp zp => .mem (.zp zp) | .staZpx zp => .mem (.zpx zp) | .staAbs w => .mem (.abs w)
  | .staAbx w => .mem (.abx w) | .staAby w => .mem (.aby w) | .staIzx zp => .mem (.izx zp)
  | .staIzy zp => .mem (.izy zp)
  | .stxZp zp => .mem (.zp zp) | .stxZpy zp => .mem (.zpy zp) | .stxAbs w => .mem (.abs w)
  | .styZp zp => .mem (.zp zp) | .styZpx zp => .mem (.zpx zp) | .styAbs w => .mem (.abs w)
  | .tax => .imp
  | .tay => .imp
  | .txa => .imp
  | .tya => .imp
  | .tsx => .imp
  | .txs => .imp
  | .adcImm v => .imm v | .adcZp zp => .mem (.zp zp) | .adcZpx zp => .mem (.zpx zp)
  | .adcAbs w => .mem (.abs w) | .adcAbx w => .mem (.abx w) | .adcAby w => .mem (.aby w)
  | .adcIzx zp => .mem (.izx zp) | .adcIzy zp => .mem (.izy zp)
  | .sbcImm v => .imm v | .sbcZp zp => .mem (.zp zp) | .sbcZpx zp => .mem (.zpx zp)
  | .sbcAbs w => .mem (.abs w) | .sbcAbx w => .mem (.abx w) | .sbcAby w => .mem (.aby w)
  | .sbcIzx zp => .mem (.izx zp) | .sbcIzy zp => .mem (.izy zp)
  | .andImm v => .imm v | .andZp zp => .mem (.zp zp) | .andZpx zp => .mem (.zpx zp)
  | .andAbs w => .mem (.abs w) | .andAbx w => .mem (.abx w) | .andAby w => .mem (.aby w)
  | .andIzx zp => .mem (.izx zp) | .andIzy zp => .mem (.izy zp)
  | .oraImm v => .imm v | .oraZp zp => .mem (.zp zp) | .oraZpx zp => .mem (.zpx zp)
  | .oraAbs w => .mem (.abs w) | .oraAbx w => .mem (.abx w) | .oraAby w => .mem (.aby w)
  | .oraIzx zp => .mem (.izx zp) | .oraIzy zp => .mem (.izy zp)
  | .eorImm v => .imm v | .eorZp zp => .mem (.zp zp) | .eorZpx zp => .mem (.zpx zp)
  | .eorAbs w => .mem (.abs w) | .eorAbx w => .mem (.abx w) | .eorAby w => .mem (.aby w)
  | .eorIzx zp => .mem (.izx zp) | .eorIzy zp => .mem (.izy zp)
  | .cmpImm v => .imm v | .cmpZp zp => .mem (.zp zp) | .cmpZpx zp => .mem (.zpx zp)
  | .cmpAbs w => .mem (.abs w) | .cmpAbx w => .mem (.abx w) | .cmpAby w => .mem (.aby w)
  | .cmpIzx zp => .mem (.izx zp) | .cmpIzy zp => .mem (.izy zp)
  | .cpxImm v => .imm v | .cpxZp zp => .mem (.zp zp) | .cpxAbs w => .mem (.abs w)
  | .cpyImm v => .imm v | .cpyZp zp => .mem (.zp zp) | .cpyAbs w => .mem (.abs w)
  | .bitZp zp => .mem (.zp zp) | .bitAbs w => .mem (.abs w)
  | .incZp zp => .mem (.zp zp) | .incZpx zp => .mem (.zpx zp) | .incAbs w => .mem (.abs w)
  | .incAbx w => .mem (.abx w)
  | .decZp zp => .mem (.zp zp) | .decZpx zp => .mem (.zpx zp) | .decAbs w => .mem (.abs w)
  | .decAbx w => .mem (.abx w)
  | .inx => .imp
  | .iny => .imp
  | .dex => .imp
  | .dey => .imp
  | .aslAcc => .acc | .aslZp zp => .mem (.zp zp) | .aslZpx zp => .mem (.zpx zp) | .aslAbs w => .mem (.abs w)
  | .aslAbx w => .mem (.abx w)
  | .lsrAcc => .acc | .lsrZp zp => .mem (.zp zp) | .lsrZpx zp => .mem (.zpx zp) | .lsrAbs w => .mem (.abs w)
  | .lsrAbx w => .mem (.abx w)
  | .rolAcc => .acc | .rolZp zp => .mem (.zp zp) | .rolZpx zp => .mem (.zpx zp) | .rolAbs w => .mem (.abs w)
  | .rolAbx w => .mem (.abx w)
  | .rorAcc => .acc | .rorZp zp => .mem (.zp zp) | .rorZpx zp => .mem (.zpx zp) | .rorAbs w => .mem (.abs w)
  | .rorAbx w => .mem (.abx w)
  | .jmpAbs w => .mem (.abs w) | .jmpInd w => .ind w
  | .jsr w => .mem (.abs w)
  | .rts => .imp
  | .bcc off => .rel off
  | .bcs off => .rel off
  | .beq off => .rel off
  | .bmi off => .rel off
  | .bne off => .rel off
  | .bpl off => .rel off
  | .bvc off => .rel off
  | .bvs off => .rel off
  | .pha => .imp
  | .php => .imp
  | .pla => .imp
  | .plp => .imp
  | .clc => .imp
  | .sec => .imp
  | .cli => .imp
  | .sei => .imp
  | .cld => .imp
  | .sed => .imp
  | .clv => .imp
  | .nop => .imp
  | .brk => .imp
  | .rti => .imp

/-- The addressing mode of an instruction. -/
def Instr.mode (i : Instr) : Mode := i.operand.mode

/-- The length of an instruction in bytes (R88). -/
def Instr.length (i : Instr) : Nat := i.mode.length

end Sys2Proof
end

