-- ==== Sys2Proof/WellFormed.lean ====
section
/-! DEFINITION. Well-formedness: of an opcode table (spec/30_encoding.md R88, U9), which the parameters of a machine carry
as a proof, so that no machine has another table; and of an instruction under the parameters of a machine. An instruction's operands are bit vectors of the encoding's widths, so no operand can be out of
range: what can be wrong with an instruction is that the machine's table or its IMPLEMENTED set does not hold it. -/

namespace Sys2Proof

/-- The modes in which a mnemonic has a constructor of `Instr`: the columns of its row in R89. A well-formed table may pair
a mnemonic with any mode (R88); `Machine.execForm` runs the other pairs. -/
def Mnemonic.modes : Mnemonic → List Mode
  | .lda => [.imm, .zp, .zpx, .abs, .abx, .aby, .izx, .izy]
  | .ldx => [.imm, .zp, .zpy, .abs, .aby]
  | .ldy => [.imm, .zp, .zpx, .abs, .abx]
  | .sta => [.zp, .zpx, .abs, .abx, .aby, .izx, .izy]
  | .stx => [.zp, .zpy, .abs]
  | .sty => [.zp, .zpx, .abs]
  | .tax => [.imp]
  | .tay => [.imp]
  | .txa => [.imp]
  | .tya => [.imp]
  | .tsx => [.imp]
  | .txs => [.imp]
  | .adc => [.imm, .zp, .zpx, .abs, .abx, .aby, .izx, .izy]
  | .sbc => [.imm, .zp, .zpx, .abs, .abx, .aby, .izx, .izy]
  | .and => [.imm, .zp, .zpx, .abs, .abx, .aby, .izx, .izy]
  | .ora => [.imm, .zp, .zpx, .abs, .abx, .aby, .izx, .izy]
  | .eor => [.imm, .zp, .zpx, .abs, .abx, .aby, .izx, .izy]
  | .cmp => [.imm, .zp, .zpx, .abs, .abx, .aby, .izx, .izy]
  | .cpx => [.imm, .zp, .abs]
  | .cpy => [.imm, .zp, .abs]
  | .bit => [.zp, .abs]
  | .inc => [.zp, .zpx, .abs, .abx]
  | .dec => [.zp, .zpx, .abs, .abx]
  | .inx => [.imp]
  | .iny => [.imp]
  | .dex => [.imp]
  | .dey => [.imp]
  | .asl => [.acc, .zp, .zpx, .abs, .abx]
  | .lsr => [.acc, .zp, .zpx, .abs, .abx]
  | .rol => [.acc, .zp, .zpx, .abs, .abx]
  | .ror => [.acc, .zp, .zpx, .abs, .abx]
  | .jmp => [.abs, .ind]
  | .jsr => [.abs]
  | .rts => [.imp]
  | .bcc => [.rel]
  | .bcs => [.rel]
  | .beq => [.rel]
  | .bmi => [.rel]
  | .bne => [.rel]
  | .bpl => [.rel]
  | .bvc => [.rel]
  | .bvs => [.rel]
  | .pha => [.imp]
  | .php => [.imp]
  | .pla => [.imp]
  | .plp => [.imp]
  | .clc => [.imp]
  | .sec => [.imp]
  | .cli => [.imp]
  | .sei => [.imp]
  | .cld => [.imp]
  | .sed => [.imp]
  | .clv => [.imp]
  | .nop => [.imp]
  | .brk => [.imp]
  | .rti => [.imp]

/-- The conditions of R88 on one entry: the length its mode requires, `branch` only with REL, `page_cross` only with ABX,
ABY, IZY. -/
def Entry.wf (e : Entry) : Bool :=
  e.length == e.mode.length
    && (e.modifier != .branch || e.mode == .rel)
    && (e.modifier != .pageCross || e.mode == .abx || e.mode == .aby || e.mode == .izy)

/-- No two entries stand under one byte (U9). -/
def OpcodeTable.distinct : OpcodeTable → Bool
  | [] => true
  | e :: t => t.all (fun e' => e'.opcode != e.opcode) && OpcodeTable.distinct t

/-- A well-formed table (R88, U9). -/
def OpcodeTable.wf (t : OpcodeTable) : Bool :=
  t.all Entry.wf && t.distinct

/-- The parameters of the step relation the spec leaves as arguments (R6): OPCODE_TABLE, which is well-formed, and
IMPLEMENTED. The other parameters have one admitted value (log 12) or belong to the machine's construction. -/
structure Params where
  table       : OpcodeTable
  implemented : List Mnemonic
  table_wf    : table.wf = true
  deriving DecidableEq, Repr

/-- Why parameters are refused before a machine exists (U9). -/
inductive ParamsError where
  | tableNotWellFormed
  deriving DecidableEq, Repr

/-- Parameters from a table as it comes from outside: one that breaks R88 or U9 is refused. -/
def Params.make (table : OpcodeTable) (implemented : List Mnemonic) : Except ParamsError Params :=
  if h : table.wf = true then .ok ⟨table, implemented, h⟩ else .error .tableNotWellFormed

/-- The entry a table holds for an instruction's mnemonic and mode, if any. -/
def OpcodeTable.entryOf (t : OpcodeTable) (i : Instr) : Option Entry :=
  t.find? (fun e => e.mnemonic == i.mnemonic && e.mode == i.mode)

/-- An instruction is well-formed under the parameters when the table encodes it and its mnemonic is implemented. -/
def Instr.wf (p : Params) (i : Instr) : Bool :=
  (p.table.entryOf i).isSome && p.implemented.contains i.mnemonic

end Sys2Proof
end

