-- ==== Sys2Proof/Decode.lean ====
section
/-! DEFINITION. The default opcode table (spec/30_encoding.md R89), the decoder (R86, R96), total on any bytes, and the
encoder written from the same table. -/

namespace Sys2Proof


/-- The entries of R89 with high nibble 0. -/
def OpcodeTable.rows0 : OpcodeTable :=
  [ ⟨0x00#8, .brk, .imp, 1, 7, .none⟩,
    ⟨0x01#8, .ora, .izx, 2, 6, .none⟩,
    ⟨0x05#8, .ora, .zp, 2, 3, .none⟩,
    ⟨0x06#8, .asl, .zp, 2, 5, .none⟩,
    ⟨0x08#8, .php, .imp, 1, 3, .none⟩,
    ⟨0x09#8, .ora, .imm, 2, 2, .none⟩,
    ⟨0x0A#8, .asl, .acc, 1, 2, .none⟩,
    ⟨0x0D#8, .ora, .abs, 3, 4, .none⟩,
    ⟨0x0E#8, .asl, .abs, 3, 6, .none⟩ ]

/-- The entries of R89 with high nibble 1. -/
def OpcodeTable.rows1 : OpcodeTable :=
  [ ⟨0x10#8, .bpl, .rel, 2, 2, .branch⟩,
    ⟨0x11#8, .ora, .izy, 2, 5, .pageCross⟩,
    ⟨0x15#8, .ora, .zpx, 2, 4, .none⟩,
    ⟨0x16#8, .asl, .zpx, 2, 6, .none⟩,
    ⟨0x18#8, .clc, .imp, 1, 2, .none⟩,
    ⟨0x19#8, .ora, .aby, 3, 4, .pageCross⟩,
    ⟨0x1D#8, .ora, .abx, 3, 4, .pageCross⟩,
    ⟨0x1E#8, .asl, .abx, 3, 7, .none⟩ ]

/-- The entries of R89 with high nibble 2. -/
def OpcodeTable.rows2 : OpcodeTable :=
  [ ⟨0x20#8, .jsr, .abs, 3, 6, .none⟩,
    ⟨0x21#8, .and, .izx, 2, 6, .none⟩,
    ⟨0x24#8, .bit, .zp, 2, 3, .none⟩,
    ⟨0x25#8, .and, .zp, 2, 3, .none⟩,
    ⟨0x26#8, .rol, .zp, 2, 5, .none⟩,
    ⟨0x28#8, .plp, .imp, 1, 4, .none⟩,
    ⟨0x29#8, .and, .imm, 2, 2, .none⟩,
    ⟨0x2A#8, .rol, .acc, 1, 2, .none⟩,
    ⟨0x2C#8, .bit, .abs, 3, 4, .none⟩,
    ⟨0x2D#8, .and, .abs, 3, 4, .none⟩,
    ⟨0x2E#8, .rol, .abs, 3, 6, .none⟩ ]

/-- The entries of R89 with high nibble 3. -/
def OpcodeTable.rows3 : OpcodeTable :=
  [ ⟨0x30#8, .bmi, .rel, 2, 2, .branch⟩,
    ⟨0x31#8, .and, .izy, 2, 5, .pageCross⟩,
    ⟨0x35#8, .and, .zpx, 2, 4, .none⟩,
    ⟨0x36#8, .rol, .zpx, 2, 6, .none⟩,
    ⟨0x38#8, .sec, .imp, 1, 2, .none⟩,
    ⟨0x39#8, .and, .aby, 3, 4, .pageCross⟩,
    ⟨0x3D#8, .and, .abx, 3, 4, .pageCross⟩,
    ⟨0x3E#8, .rol, .abx, 3, 7, .none⟩ ]

/-- The entries of R89 with high nibble 4. -/
def OpcodeTable.rows4 : OpcodeTable :=
  [ ⟨0x40#8, .rti, .imp, 1, 6, .none⟩,
    ⟨0x41#8, .eor, .izx, 2, 6, .none⟩,
    ⟨0x45#8, .eor, .zp, 2, 3, .none⟩,
    ⟨0x46#8, .lsr, .zp, 2, 5, .none⟩,
    ⟨0x48#8, .pha, .imp, 1, 3, .none⟩,
    ⟨0x49#8, .eor, .imm, 2, 2, .none⟩,
    ⟨0x4A#8, .lsr, .acc, 1, 2, .none⟩,
    ⟨0x4C#8, .jmp, .abs, 3, 3, .none⟩,
    ⟨0x4D#8, .eor, .abs, 3, 4, .none⟩,
    ⟨0x4E#8, .lsr, .abs, 3, 6, .none⟩ ]

/-- The entries of R89 with high nibble 5. -/
def OpcodeTable.rows5 : OpcodeTable :=
  [ ⟨0x50#8, .bvc, .rel, 2, 2, .branch⟩,
    ⟨0x51#8, .eor, .izy, 2, 5, .pageCross⟩,
    ⟨0x55#8, .eor, .zpx, 2, 4, .none⟩,
    ⟨0x56#8, .lsr, .zpx, 2, 6, .none⟩,
    ⟨0x58#8, .cli, .imp, 1, 2, .none⟩,
    ⟨0x59#8, .eor, .aby, 3, 4, .pageCross⟩,
    ⟨0x5D#8, .eor, .abx, 3, 4, .pageCross⟩,
    ⟨0x5E#8, .lsr, .abx, 3, 7, .none⟩ ]

/-- The entries of R89 with high nibble 6. -/
def OpcodeTable.rows6 : OpcodeTable :=
  [ ⟨0x60#8, .rts, .imp, 1, 6, .none⟩,
    ⟨0x61#8, .adc, .izx, 2, 6, .none⟩,
    ⟨0x65#8, .adc, .zp, 2, 3, .none⟩,
    ⟨0x66#8, .ror, .zp, 2, 5, .none⟩,
    ⟨0x68#8, .pla, .imp, 1, 4, .none⟩,
    ⟨0x69#8, .adc, .imm, 2, 2, .none⟩,
    ⟨0x6A#8, .ror, .acc, 1, 2, .none⟩,
    ⟨0x6C#8, .jmp, .ind, 3, 5, .none⟩,
    ⟨0x6D#8, .adc, .abs, 3, 4, .none⟩,
    ⟨0x6E#8, .ror, .abs, 3, 6, .none⟩ ]

/-- The entries of R89 with high nibble 7. -/
def OpcodeTable.rows7 : OpcodeTable :=
  [ ⟨0x70#8, .bvs, .rel, 2, 2, .branch⟩,
    ⟨0x71#8, .adc, .izy, 2, 5, .pageCross⟩,
    ⟨0x75#8, .adc, .zpx, 2, 4, .none⟩,
    ⟨0x76#8, .ror, .zpx, 2, 6, .none⟩,
    ⟨0x78#8, .sei, .imp, 1, 2, .none⟩,
    ⟨0x79#8, .adc, .aby, 3, 4, .pageCross⟩,
    ⟨0x7D#8, .adc, .abx, 3, 4, .pageCross⟩,
    ⟨0x7E#8, .ror, .abx, 3, 7, .none⟩ ]

/-- The entries of R89 with high nibble 8. -/
def OpcodeTable.rows8 : OpcodeTable :=
  [ ⟨0x81#8, .sta, .izx, 2, 6, .none⟩,
    ⟨0x84#8, .sty, .zp, 2, 3, .none⟩,
    ⟨0x85#8, .sta, .zp, 2, 3, .none⟩,
    ⟨0x86#8, .stx, .zp, 2, 3, .none⟩,
    ⟨0x88#8, .dey, .imp, 1, 2, .none⟩,
    ⟨0x8A#8, .txa, .imp, 1, 2, .none⟩,
    ⟨0x8C#8, .sty, .abs, 3, 4, .none⟩,
    ⟨0x8D#8, .sta, .abs, 3, 4, .none⟩,
    ⟨0x8E#8, .stx, .abs, 3, 4, .none⟩ ]

/-- The entries of R89 with high nibble 9. -/
def OpcodeTable.rows9 : OpcodeTable :=
  [ ⟨0x90#8, .bcc, .rel, 2, 2, .branch⟩,
    ⟨0x91#8, .sta, .izy, 2, 6, .none⟩,
    ⟨0x94#8, .sty, .zpx, 2, 4, .none⟩,
    ⟨0x95#8, .sta, .zpx, 2, 4, .none⟩,
    ⟨0x96#8, .stx, .zpy, 2, 4, .none⟩,
    ⟨0x98#8, .tya, .imp, 1, 2, .none⟩,
    ⟨0x99#8, .sta, .aby, 3, 5, .none⟩,
    ⟨0x9A#8, .txs, .imp, 1, 2, .none⟩,
    ⟨0x9D#8, .sta, .abx, 3, 5, .none⟩ ]

/-- The entries of R89 with high nibble A. -/
def OpcodeTable.rowsA : OpcodeTable :=
  [ ⟨0xA0#8, .ldy, .imm, 2, 2, .none⟩,
    ⟨0xA1#8, .lda, .izx, 2, 6, .none⟩,
    ⟨0xA2#8, .ldx, .imm, 2, 2, .none⟩,
    ⟨0xA4#8, .ldy, .zp, 2, 3, .none⟩,
    ⟨0xA5#8, .lda, .zp, 2, 3, .none⟩,
    ⟨0xA6#8, .ldx, .zp, 2, 3, .none⟩,
    ⟨0xA8#8, .tay, .imp, 1, 2, .none⟩,
    ⟨0xA9#8, .lda, .imm, 2, 2, .none⟩,
    ⟨0xAA#8, .tax, .imp, 1, 2, .none⟩,
    ⟨0xAC#8, .ldy, .abs, 3, 4, .none⟩,
    ⟨0xAD#8, .lda, .abs, 3, 4, .none⟩,
    ⟨0xAE#8, .ldx, .abs, 3, 4, .none⟩ ]

/-- The entries of R89 with high nibble B. -/
def OpcodeTable.rowsB : OpcodeTable :=
  [ ⟨0xB0#8, .bcs, .rel, 2, 2, .branch⟩,
    ⟨0xB1#8, .lda, .izy, 2, 5, .pageCross⟩,
    ⟨0xB4#8, .ldy, .zpx, 2, 4, .none⟩,
    ⟨0xB5#8, .lda, .zpx, 2, 4, .none⟩,
    ⟨0xB6#8, .ldx, .zpy, 2, 4, .none⟩,
    ⟨0xB8#8, .clv, .imp, 1, 2, .none⟩,
    ⟨0xB9#8, .lda, .aby, 3, 4, .pageCross⟩,
    ⟨0xBA#8, .tsx, .imp, 1, 2, .none⟩,
    ⟨0xBC#8, .ldy, .abx, 3, 4, .pageCross⟩,
    ⟨0xBD#8, .lda, .abx, 3, 4, .pageCross⟩,
    ⟨0xBE#8, .ldx, .aby, 3, 4, .pageCross⟩ ]

/-- The entries of R89 with high nibble C. -/
def OpcodeTable.rowsC : OpcodeTable :=
  [ ⟨0xC0#8, .cpy, .imm, 2, 2, .none⟩,
    ⟨0xC1#8, .cmp, .izx, 2, 6, .none⟩,
    ⟨0xC4#8, .cpy, .zp, 2, 3, .none⟩,
    ⟨0xC5#8, .cmp, .zp, 2, 3, .none⟩,
    ⟨0xC6#8, .dec, .zp, 2, 5, .none⟩,
    ⟨0xC8#8, .iny, .imp, 1, 2, .none⟩,
    ⟨0xC9#8, .cmp, .imm, 2, 2, .none⟩,
    ⟨0xCA#8, .dex, .imp, 1, 2, .none⟩,
    ⟨0xCC#8, .cpy, .abs, 3, 4, .none⟩,
    ⟨0xCD#8, .cmp, .abs, 3, 4, .none⟩,
    ⟨0xCE#8, .dec, .abs, 3, 6, .none⟩ ]

/-- The entries of R89 with high nibble D. -/
def OpcodeTable.rowsD : OpcodeTable :=
  [ ⟨0xD0#8, .bne, .rel, 2, 2, .branch⟩,
    ⟨0xD1#8, .cmp, .izy, 2, 5, .pageCross⟩,
    ⟨0xD5#8, .cmp, .zpx, 2, 4, .none⟩,
    ⟨0xD6#8, .dec, .zpx, 2, 6, .none⟩,
    ⟨0xD8#8, .cld, .imp, 1, 2, .none⟩,
    ⟨0xD9#8, .cmp, .aby, 3, 4, .pageCross⟩,
    ⟨0xDD#8, .cmp, .abx, 3, 4, .pageCross⟩,
    ⟨0xDE#8, .dec, .abx, 3, 7, .none⟩ ]

/-- The entries of R89 with high nibble E. -/
def OpcodeTable.rowsE : OpcodeTable :=
  [ ⟨0xE0#8, .cpx, .imm, 2, 2, .none⟩,
    ⟨0xE1#8, .sbc, .izx, 2, 6, .none⟩,
    ⟨0xE4#8, .cpx, .zp, 2, 3, .none⟩,
    ⟨0xE5#8, .sbc, .zp, 2, 3, .none⟩,
    ⟨0xE6#8, .inc, .zp, 2, 5, .none⟩,
    ⟨0xE8#8, .inx, .imp, 1, 2, .none⟩,
    ⟨0xE9#8, .sbc, .imm, 2, 2, .none⟩,
    ⟨0xEA#8, .nop, .imp, 1, 2, .none⟩,
    ⟨0xEC#8, .cpx, .abs, 3, 4, .none⟩,
    ⟨0xED#8, .sbc, .abs, 3, 4, .none⟩,
    ⟨0xEE#8, .inc, .abs, 3, 6, .none⟩ ]

/-- The entries of R89 with high nibble F. -/
def OpcodeTable.rowsF : OpcodeTable :=
  [ ⟨0xF0#8, .beq, .rel, 2, 2, .branch⟩,
    ⟨0xF1#8, .sbc, .izy, 2, 5, .pageCross⟩,
    ⟨0xF5#8, .sbc, .zpx, 2, 4, .none⟩,
    ⟨0xF6#8, .inc, .zpx, 2, 6, .none⟩,
    ⟨0xF8#8, .sed, .imp, 1, 2, .none⟩,
    ⟨0xF9#8, .sbc, .aby, 3, 4, .pageCross⟩,
    ⟨0xFD#8, .sbc, .abx, 3, 4, .pageCross⟩,
    ⟨0xFE#8, .inc, .abx, 3, 7, .none⟩ ]

/-- The default table: the 151 entries of R89, in ascending order of the opcode byte. -/
def OpcodeTable.mos6502 : OpcodeTable :=
  rows0 ++ rows1 ++ rows2 ++ rows3 ++ rows4 ++ rows5 ++ rows6 ++ rows7 ++
  rows8 ++ rows9 ++ rowsA ++ rowsB ++ rowsC ++ rowsD ++ rowsE ++ rowsF

/-- The default IMPLEMENTED: all 56 mnemonics (R95). -/
def Params.allMnemonics : List Mnemonic :=
  [ .lda, .ldx, .ldy, .sta, .stx, .sty, .tax, .tay, .txa, .tya, .tsx, .txs, .adc, .sbc,
    .and, .ora, .eor, .cmp, .cpx, .cpy, .bit, .inc, .dec, .inx, .iny, .dex, .dey, .asl,
    .lsr, .rol, .ror, .jmp, .jsr, .rts, .bcc, .bcs, .beq, .bmi, .bne, .bpl, .bvc, .bvs,
    .pha, .php, .pla, .plp, .clc, .sec, .cli, .sei, .cld, .sed, .clv, .nop, .brk, .rti ]

/-- The parameters of CORE at their default values (R6, R89, R95). -/
def Params.core : Params := ⟨.mos6502, allMnemonics, by decide⟩

/-- Why bytes do not decode to an `Instr`: a lookup miss (R90); an entry that pairs a mnemonic with a mode outside R89,
which has no constructor (log 9); fewer bytes than the instruction has (log 11). -/
inductive DecodeError where
  | illegalOpcode (op : Byte)
  | noSuchForm (m : Mnemonic) (mode : Mode)
  | truncated
  deriving DecidableEq, Repr

/-- The instruction of a mnemonic and mode with operand bytes `b1` and `b2` (R84); an operand word is `{b2, b1}` (R83). -/
def assemble (m : Mnemonic) (mode : Mode) (b1 b2 : Byte) : Option Instr :=
  match m with
  | .lda => match mode with
    | .imm => some (.ldaImm b1) | .zp => some (.ldaZp b1) | .zpx => some (.ldaZpx b1)
    | .abs => some (.ldaAbs (Machine.mkWord b2 b1)) | .abx => some (.ldaAbx (Machine.mkWord b2 b1))
    | .aby => some (.ldaAby (Machine.mkWord b2 b1)) | .izx => some (.ldaIzx b1) | .izy => some (.ldaIzy b1) | _ => none
  | .ldx => match mode with
    | .imm => some (.ldxImm b1) | .zp => some (.ldxZp b1) | .zpy => some (.ldxZpy b1)
    | .abs => some (.ldxAbs (Machine.mkWord b2 b1)) | .aby => some (.ldxAby (Machine.mkWord b2 b1)) | _ => none
  | .ldy => match mode with
    | .imm => some (.ldyImm b1) | .zp => some (.ldyZp b1) | .zpx => some (.ldyZpx b1)
    | .abs => some (.ldyAbs (Machine.mkWord b2 b1)) | .abx => some (.ldyAbx (Machine.mkWord b2 b1)) | _ => none
  | .sta => match mode with
    | .zp => some (.staZp b1) | .zpx => some (.staZpx b1) | .abs => some (.staAbs (Machine.mkWord b2 b1))
    | .abx => some (.staAbx (Machine.mkWord b2 b1)) | .aby => some (.staAby (Machine.mkWord b2 b1))
    | .izx => some (.staIzx b1) | .izy => some (.staIzy b1) | _ => none
  | .stx => match mode with
    | .zp => some (.stxZp b1) | .zpy => some (.stxZpy b1) | .abs => some (.stxAbs (Machine.mkWord b2 b1)) | _ => none
  | .sty => match mode with
    | .zp => some (.styZp b1) | .zpx => some (.styZpx b1) | .abs => some (.styAbs (Machine.mkWord b2 b1)) | _ => none
  | .tax => match mode with
    | .imp => some .tax | _ => none
  | .tay => match mode with
    | .imp => some .tay | _ => none
  | .txa => match mode with
    | .imp => some .txa | _ => none
  | .tya => match mode with
    | .imp => some .tya | _ => none
  | .tsx => match mode with
    | .imp => some .tsx | _ => none
  | .txs => match mode with
    | .imp => some .txs | _ => none
  | .adc => match mode with
    | .imm => some (.adcImm b1) | .zp => some (.adcZp b1) | .zpx => some (.adcZpx b1)
    | .abs => some (.adcAbs (Machine.mkWord b2 b1)) | .abx => some (.adcAbx (Machine.mkWord b2 b1))
    | .aby => some (.adcAby (Machine.mkWord b2 b1)) | .izx => some (.adcIzx b1) | .izy => some (.adcIzy b1) | _ => none
  | .sbc => match mode with
    | .imm => some (.sbcImm b1) | .zp => some (.sbcZp b1) | .zpx => some (.sbcZpx b1)
    | .abs => some (.sbcAbs (Machine.mkWord b2 b1)) | .abx => some (.sbcAbx (Machine.mkWord b2 b1))
    | .aby => some (.sbcAby (Machine.mkWord b2 b1)) | .izx => some (.sbcIzx b1) | .izy => some (.sbcIzy b1) | _ => none
  | .and => match mode with
    | .imm => some (.andImm b1) | .zp => some (.andZp b1) | .zpx => some (.andZpx b1)
    | .abs => some (.andAbs (Machine.mkWord b2 b1)) | .abx => some (.andAbx (Machine.mkWord b2 b1))
    | .aby => some (.andAby (Machine.mkWord b2 b1)) | .izx => some (.andIzx b1) | .izy => some (.andIzy b1) | _ => none
  | .ora => match mode with
    | .imm => some (.oraImm b1) | .zp => some (.oraZp b1) | .zpx => some (.oraZpx b1)
    | .abs => some (.oraAbs (Machine.mkWord b2 b1)) | .abx => some (.oraAbx (Machine.mkWord b2 b1))
    | .aby => some (.oraAby (Machine.mkWord b2 b1)) | .izx => some (.oraIzx b1) | .izy => some (.oraIzy b1) | _ => none
  | .eor => match mode with
    | .imm => some (.eorImm b1) | .zp => some (.eorZp b1) | .zpx => some (.eorZpx b1)
    | .abs => some (.eorAbs (Machine.mkWord b2 b1)) | .abx => some (.eorAbx (Machine.mkWord b2 b1))
    | .aby => some (.eorAby (Machine.mkWord b2 b1)) | .izx => some (.eorIzx b1) | .izy => some (.eorIzy b1) | _ => none
  | .cmp => match mode with
    | .imm => some (.cmpImm b1) | .zp => some (.cmpZp b1) | .zpx => some (.cmpZpx b1)
    | .abs => some (.cmpAbs (Machine.mkWord b2 b1)) | .abx => some (.cmpAbx (Machine.mkWord b2 b1))
    | .aby => some (.cmpAby (Machine.mkWord b2 b1)) | .izx => some (.cmpIzx b1) | .izy => some (.cmpIzy b1) | _ => none
  | .cpx => match mode with
    | .imm => some (.cpxImm b1) | .zp => some (.cpxZp b1) | .abs => some (.cpxAbs (Machine.mkWord b2 b1)) | _ => none
  | .cpy => match mode with
    | .imm => some (.cpyImm b1) | .zp => some (.cpyZp b1) | .abs => some (.cpyAbs (Machine.mkWord b2 b1)) | _ => none
  | .bit => match mode with
    | .zp => some (.bitZp b1) | .abs => some (.bitAbs (Machine.mkWord b2 b1)) | _ => none
  | .inc => match mode with
    | .zp => some (.incZp b1) | .zpx => some (.incZpx b1) | .abs => some (.incAbs (Machine.mkWord b2 b1))
    | .abx => some (.incAbx (Machine.mkWord b2 b1)) | _ => none
  | .dec => match mode with
    | .zp => some (.decZp b1) | .zpx => some (.decZpx b1) | .abs => some (.decAbs (Machine.mkWord b2 b1))
    | .abx => some (.decAbx (Machine.mkWord b2 b1)) | _ => none
  | .inx => match mode with
    | .imp => some .inx | _ => none
  | .iny => match mode with
    | .imp => some .iny | _ => none
  | .dex => match mode with
    | .imp => some .dex | _ => none
  | .dey => match mode with
    | .imp => some .dey | _ => none
  | .asl => match mode with
    | .acc => some .aslAcc | .zp => some (.aslZp b1) | .zpx => some (.aslZpx b1)
    | .abs => some (.aslAbs (Machine.mkWord b2 b1)) | .abx => some (.aslAbx (Machine.mkWord b2 b1)) | _ => none
  | .lsr => match mode with
    | .acc => some .lsrAcc | .zp => some (.lsrZp b1) | .zpx => some (.lsrZpx b1)
    | .abs => some (.lsrAbs (Machine.mkWord b2 b1)) | .abx => some (.lsrAbx (Machine.mkWord b2 b1)) | _ => none
  | .rol => match mode with
    | .acc => some .rolAcc | .zp => some (.rolZp b1) | .zpx => some (.rolZpx b1)
    | .abs => some (.rolAbs (Machine.mkWord b2 b1)) | .abx => some (.rolAbx (Machine.mkWord b2 b1)) | _ => none
  | .ror => match mode with
    | .acc => some .rorAcc | .zp => some (.rorZp b1) | .zpx => some (.rorZpx b1)
    | .abs => some (.rorAbs (Machine.mkWord b2 b1)) | .abx => some (.rorAbx (Machine.mkWord b2 b1)) | _ => none
  | .jmp => match mode with
    | .abs => some (.jmpAbs (Machine.mkWord b2 b1)) | .ind => some (.jmpInd (Machine.mkWord b2 b1)) | _ => none
  | .jsr => match mode with
    | .abs => some (.jsr (Machine.mkWord b2 b1)) | _ => none
  | .rts => match mode with
    | .imp => some .rts | _ => none
  | .bcc => match mode with
    | .rel => some (.bcc b1) | _ => none
  | .bcs => match mode with
    | .rel => some (.bcs b1) | _ => none
  | .beq => match mode with
    | .rel => some (.beq b1) | _ => none
  | .bmi => match mode with
    | .rel => some (.bmi b1) | _ => none
  | .bne => match mode with
    | .rel => some (.bne b1) | _ => none
  | .bpl => match mode with
    | .rel => some (.bpl b1) | _ => none
  | .bvc => match mode with
    | .rel => some (.bvc b1) | _ => none
  | .bvs => match mode with
    | .rel => some (.bvs b1) | _ => none
  | .pha => match mode with
    | .imp => some .pha | _ => none
  | .php => match mode with
    | .imp => some .php | _ => none
  | .pla => match mode with
    | .imp => some .pla | _ => none
  | .plp => match mode with
    | .imp => some .plp | _ => none
  | .clc => match mode with
    | .imp => some .clc | _ => none
  | .sec => match mode with
    | .imp => some .sec | _ => none
  | .cli => match mode with
    | .imp => some .cli | _ => none
  | .sei => match mode with
    | .imp => some .sei | _ => none
  | .cld => match mode with
    | .imp => some .cld | _ => none
  | .sed => match mode with
    | .imp => some .sed | _ => none
  | .clv => match mode with
    | .imp => some .clv | _ => none
  | .nop => match mode with
    | .imp => some .nop | _ => none
  | .brk => match mode with
    | .imp => some .brk | _ => none
  | .rti => match mode with
    | .imp => some .rti | _ => none

/-- The operand of a mode with operand bytes `b1` and `b2` (R84); an operand word is `b2 : b1` (R83). -/
def operandOf (mode : Mode) (b1 b2 : Byte) : Operand :=
  match mode with
  | .acc => .acc
  | .imp => .imp
  | .imm => .imm b1
  | .zp => .mem (.zp b1)
  | .zpx => .mem (.zpx b1)
  | .zpy => .mem (.zpy b1)
  | .abs => .mem (.abs (Machine.mkWord b2 b1))
  | .abx => .mem (.abx (Machine.mkWord b2 b1))
  | .aby => .mem (.aby (Machine.mkWord b2 b1))
  | .izx => .mem (.izx b1)
  | .izy => .mem (.izy b1)
  | .ind => .ind (Machine.mkWord b2 b1)
  | .rel => .rel b1

/-- The operand bytes of an operand, in memory order (R82, R83). -/
def Operand.bytes : Operand → List Byte
  | .acc | .imp => []
  | .imm v => [v]
  | .rel off => [off]
  | .ind w => [Machine.lo w, Machine.hi w]
  | .mem m => match m with
    | .zp b | .zpx b | .zpy b | .izx b | .izy b => [b]
    | .abs w | .abx w | .aby w => [Machine.lo w, Machine.hi w]

/-- The decoder over a table (R86, R96): byte 0 selects the entry and nothing else does; the operand bytes follow. It
answers the instruction and the bytes after it. -/
def decodeWith (t : OpcodeTable) : List Byte → Except DecodeError (Instr × List Byte)
  | [] => .error .truncated
  | op :: rest =>
    match t.lookup op with
    | none => .error (.illegalOpcode op)
    | some e =>
      if rest.length + 1 < e.length then .error .truncated
      else
        match assemble e.mnemonic e.mode (rest.getD 0 0#8) (rest.getD 1 0#8) with
        | none => .error (.noSuchForm e.mnemonic e.mode)
        | some i => .ok (i, rest.drop (e.length - 1))

/-- The decoder of CORE, over the default table. -/
def decode (bytes : List Byte) : Except DecodeError (Instr × List Byte) :=
  decodeWith .mos6502 bytes

/-- The encoder over a table: the opcode byte of the instruction's entry, then its operand bytes; `none` for an
instruction the table does not hold. -/
def encodeWith (t : OpcodeTable) (i : Instr) : Option (List Byte) :=
  (t.entryOf i).map (fun e => e.opcode :: i.operand.bytes)

/-- The encoder of CORE. Every instruction has an entry in the default table, so the empty list never results
(`Laws.TableRow`). -/
def encode (i : Instr) : List Byte :=
  (encodeWith .mos6502 i).getD []

/-- The three bytes of an instruction word `w` of `nbits` bits: the table's bit 0 is the least significant bit of the
first byte, a later byte's bits count on from it, and every bit above `nbits` is 0. -/
def tableWordBytes (nbits w : Nat) : List Byte :=
  let v := w % 2 ^ nbits
  [Machine.byteOfNat v 0, Machine.byteOfNat v 1, Machine.byteOfNat v 2]

/-- The instruction the decoder reads from a word of spec/opcode_table.json. -/
def decodeTableWord (nbits w : Nat) : Option Instr :=
  match decode (tableWordBytes nbits w) with
  | .ok (i, _) => some i
  | .error _ => none

end Sys2Proof
end

