-- ==== Sys2Proof/Machine/Memory.lean ====
section
/-! DEFINITION. A byte array as data: the list of its (index, byte) cells in one canonical form, indices strictly rising
and no cell equal to `Memory.fill`. RAM, PRG and CHR (spec/10_state.md R28) are three such arrays. -/

namespace Sys2Proof.Machine

/-- A byte array: index and byte. -/
abbrev Memory := List Host.Cell

/-- What an unlisted index reads as. It is the representation's default and no statement about power-on: `State.powerOn`
takes any contents as its argument (R244, log 2). -/
def Memory.fill : Byte := 0x00#8

/-- The canonical form, from index `lowest` on: indices strictly rising and below `size`, no byte equal to `fill`. -/
def Memory.wfFrom (lowest size : Nat) : Memory → Bool
  | [] => true
  | (k, v) :: rest =>
    decide (lowest ≤ k) && decide (k < size) && v != fill && Memory.wfFrom (k + 1) size rest

/-- The canonical form of an array of `size` bytes. -/
def Memory.wf (size : Nat) (m : Memory) : Bool := m.wfFrom 0 size

/-- The byte at index `k`. -/
def Memory.read : Memory → Nat → Byte
  | [], _ => fill
  | (j, v) :: rest, k => if j = k then v else Memory.read rest k

/-- The cell list with the byte `v` put at index `k` in front of `rest`: no cell where `v` is `fill`. -/
def Memory.put (k : Nat) (v : Byte) (rest : Memory) : Memory :=
  if v = fill then rest else (k, v) :: rest

/-- Write `v` at index `k`, keeping the canonical form. -/
def Memory.write : Memory → Nat → Byte → Memory
  | [], k, v => Memory.put k v []
  | (j, u) :: rest, k, v =>
    if k < j then Memory.put k v ((j, u) :: rest)
    else if k = j then Memory.put k v rest
    else (j, u) :: Memory.write rest k v

/-- The canonical form of a byte sequence whose first byte has index `k`. -/
def Memory.ofBytesFrom (k : Nat) : List Byte → Memory
  | [] => []
  | v :: vs => Memory.put k v (Memory.ofBytesFrom (k + 1) vs)

/-- The canonical form of a byte sequence. -/
def Memory.ofBytes (bytes : List Byte) : Memory := Memory.ofBytesFrom 0 bytes

end Sys2Proof.Machine
end

