-- ==== Sys2Proof/Machine/Cartridge.lean ====
section
/-! DEFINITION. The cartridge mapper (spec/20_memory.md R52 to R59): the registry, construction with its checks, the PRG
read path and the CHR bank. -/

namespace Sys2Proof.Machine

/-- How many 16 KiB PRG banks are loaded (R55). -/
inductive PrgBanks where
  | one | two
  deriving DecidableEq, Repr

/-- The loaded PRG bytes. -/
def PrgBanks.size : PrgBanks → Nat
  | .one => Config.prgBank
  | .two => 2 * Config.prgBank

/-- The mapper's loaded, immutable contents (R28 (2), (3)). The fixed mapper has no bank-selection state (R28 (4), R52). -/
structure Cartridge where
  banks : PrgBanks
  prg   : Memory
  chr   : Option Memory
  deriving DecidableEq, Repr

/-- The cartridge of `State.reset` (log 3): the smallest that passes construction, one PRG bank of 0x00 and no CHR. -/
def Cartridge.blank : Cartridge := ⟨.one, [], none⟩

/-- The three arrays are canonical and of their sizes. -/
def Cartridge.wf (c : Cartridge) : Bool :=
  c.prg.wf c.banks.size && (c.chr.all (fun m => m.wf Config.chrBank))

/-- The kinds of mapper the registry can build (R54). -/
inductive MapperKind where
  | fixed
  deriving DecidableEq, Repr

/-- The registry (R54): number 0 is the fixed mapper. -/
def mapperRegistry : List (Nat × MapperKind) := [(0, .fixed)]

/-- Which byte sequence a size mismatch is about (R53). -/
inductive RomPart where
  | prg | chr
  deriving DecidableEq, Repr

/-- Configuration errors (R224): raised by `construct`, never by a step. After one of them no machine exists. -/
inductive ConfigError where
  | unsupportedMapper (number : Nat)
  | noPrgData
  | sizeMismatch (which : RomPart) (length : Nat)
  deriving DecidableEq, Repr

/-- The bank loading of the fixed mapper (R55): the first one or two PRG banks, and the first CHR bank if there is one. -/
def loadFixed (prgRom chrRom : List Byte) : Cartridge where
  banks := if prgRom.length / Config.prgBank = 1 then .one else .two
  prg := Memory.ofBytes (prgRom.take (2 * Config.prgBank))
  chr := if Config.chrBank ≤ chrRom.length then some (Memory.ofBytes (chrRom.take Config.chrBank)) else none

/-- Construction (R53): the four checks in their order, then bank loading. -/
def construct (prgRom chrRom : List Byte) (mapperNumber : Nat) : Except ConfigError Cartridge :=
  match mapperRegistry.lookup mapperNumber with
  | none => .error (.unsupportedMapper mapperNumber)
  | some .fixed =>
    if prgRom.length = 0 then .error .noPrgData
    else if prgRom.length % Config.prgBank ≠ 0 then .error (.sizeMismatch .prg prgRom.length)
    else if chrRom.length % Config.chrBank ≠ 0 then .error (.sizeMismatch .chr chrRom.length)
    else .ok (loadFixed prgRom chrRom)

/-- The PRG index of an address at or above 0x8000 (R57): one bank is mirrored. -/
def Cartridge.prgIndex (c : Cartridge) (a : Addr) : Nat :=
  match c.banks with
  | .one => ((a - Config.prgStart) &&& Config.prgMirrorMask).toNat
  | .two => (a - Config.prgStart).toNat

/-- `read_prg` (R57). -/
def Cartridge.readPrg (c : Cartridge) (a : Addr) : Byte := c.prg.read (c.prgIndex a)

/-- The cartridge with one PRG byte replaced: no operation of the hardware (R58), but how a program is put into the
cartridge from outside (log 3). -/
def Cartridge.placePrg (c : Cartridge) (a : Addr) (v : Byte) : Cartridge :=
  { c with prg := c.prg.write (c.prgIndex a) v }

end Sys2Proof.Machine
end

