-- ==== Sys2Proof/Machine/Bus.lean ====
section
/-! DEFINITION. The bus and the devices behind it (spec/20_memory.md R41 to R51, R56 to R58, R60, R73). -/

namespace Sys2Proof.Machine

/-- An extra device (R73): only the addresses it claims, `first` to `last`, are data. What it does is not in the spec, so
its reads and the outcome of its writes are free values (log 6). A device that claims several ranges is several entries. -/
structure ExtraDevice where
  first : Addr
  last  : Addr
  deriving DecidableEq, Repr

/-- What the bus routes to: the RAM array, the mapper's contents, and EXTRA_DEVICES in order (R28, R42). -/
structure Bus where
  ram   : Memory
  cart  : Cartridge
  extra : List ExtraDevice
  deriving DecidableEq, Repr

/-- A bus device (R41). -/
inductive Device where
  | ram
  | mapper
  | extra (d : ExtraDevice)
  deriving DecidableEq, Repr

/-- `chip_select` (R49, R56): a pure predicate of the address (R41). -/
def Device.chipSelect : Device → Addr → Bool
  | .ram, a => a.toNat < Config.ramEnd.toNat
  | .mapper, a => Config.prgStart.toNat ≤ a.toNat
  | .extra d, a => d.first.toNat ≤ a.toNat && a.toNat ≤ d.last.toNat

/-- The first device of a list that claims an address (R43, R47). -/
def routeIn (devices : List Device) (a : Addr) : Option Device :=
  devices.find? (fun d => d.chipSelect a)

/-- The ordered device list `[RAM, MAPPER] ++ EXTRA_DEVICES` (R42). -/
def Bus.devices (b : Bus) : List Device := [.ram, .mapper] ++ b.extra.map .extra

/-- Some extra device's `chip_select` holds for the address. -/
def Bus.claimed (b : Bus) (a : Addr) : Bool := b.extra.any (fun d => (Device.extra d).chipSelect a)

/-- `route` (R43). -/
def Bus.route (b : Bus) (a : Addr) : Option Device := routeIn b.devices a

/-- The RAM cell of an address (R48): `address & 0x7FF`. -/
def ramCell (a : Addr) : Nat := (a &&& Config.ramMask).toNat

/-- `RAM.write` (R50). -/
def Bus.writeRam (b : Bus) (a : Addr) (v : Byte) : Bus :=
  { b with ram := b.ram.write (ramCell a) v }

/-- The byte stored at an address: RAM or PRG, and 0x00 where neither is (R60). It is what a read returns wherever no
extra device answers. -/
def Bus.peek (b : Bus) (a : Addr) : Byte :=
  match b.route a with
  | some .ram => b.ram.read (ramCell a)
  | some .mapper => b.cart.readPrg a
  | some (.extra _) => Config.openBus
  | none => Config.openBus

/-- `bus.read` (R44, R50, R57; an extra device returns an unconstrained byte, R73). No read changes state (R66). -/
def Bus.read (b : Bus) (tick : Nat) (slot : Config.ReadSlot) (a : Addr) : Byte :=
  match b.route a with
  | some .ram => b.ram.read (ramCell a)
  | some .mapper => b.cart.readPrg a
  | some (.extra _) => Config.deviceRead tick slot a
  | none => Config.openBus

/-- Why a device refuses a write (R45): MAPPER's read-only violation (R58), or an extra device's own error (R73). -/
inductive WriteError where
  | readOnly
  | device
  deriving DecidableEq, Repr

/-- `bus.write` (R45): forwarded to the device, dropped if no device claims the address. -/
def Bus.write (b : Bus) (tick : Nat) (a : Addr) (v : Byte) : Except WriteError Bus :=
  match b.route a with
  | some .ram => .ok (b.writeRam a v)
  | some .mapper => .error .readOnly
  | some (.extra _) => if Config.deviceWriteFails tick a v then .error .device else .ok b
  | none => .ok b

/-- `MemRead(addr, 2)` (R62): low byte first, the second address wrapping in 16 bits. -/
def Bus.readWord (b : Bus) (tick : Nat) (lowSlot highSlot : Config.ReadSlot) (a : Addr) : Addr :=
  mkWord (b.read tick highSlot (a + 1#16)) (b.read tick lowSlot a)

/-- A byte put where the bus would read it from, by whoever builds the machine (log 3): `none` where nothing stores. -/
def Bus.place (b : Bus) (a : Addr) (v : Byte) : Option Bus :=
  match b.route a with
  | some .ram => some (b.writeRam a v)
  | some .mapper => some { b with cart := b.cart.placePrg a v }
  | some (.extra _) => none
  | none => none

/-- Bytes put at consecutive addresses from `a` on. -/
def Bus.placeAll (b : Bus) (a : Addr) : List Byte → Option Bus
  | [] => some b
  | v :: vs => (b.place a v).bind (fun b' => Bus.placeAll b' (a + 1#16) vs)

/-- The arrays behind the bus are canonical and of their sizes. -/
def Bus.wf (b : Bus) : Bool := b.ram.wf Config.ramSize && b.cart.wf

end Sys2Proof.Machine
end

