-- ==== Sys2Proof/Machine/Flags.lean ====
section
/-! DEFINITION. The seven flags (spec/10_state.md R15), the status byte (R24, R25) and every flag computation
(spec/40_step_and_addressing.md R122; spec/42_arithmetic_logic.md; spec/43_shift_rotate.md; spec/44_control_flow.md). -/

namespace Sys2Proof.Machine

/-- The flags: seven one-bit state elements (R15). -/
structure Flags where
  c : Bool  -- Carry (R16)
  z : Bool  -- Zero (R17)
  i : Bool  -- Interrupt-disable (R18)
  d : Bool  -- Decimal (R19)
  b : Bool  -- Break (R20)
  v : Bool  -- Overflow (R21)
  n : Bool  -- Negative (R22)
  deriving DecidableEq, Repr

/-- The flags after reset (R241). -/
def Flags.reset : Flags := ⟨false, false, true, false, true, false, false⟩

/-- A flag's bit at a place of the status byte. -/
def flagBit (f : Bool) (place : Nat) : Byte := if f then BitVec.ofNat 8 (2 ^ place) else 0#8

/-- `pack()` (R24): the byte N V 1 B D I Z C, bit 7 first. -/
def Flags.pack (f : Flags) : Byte :=
  flagBit f.n 7 ||| flagBit f.v 6 ||| flagBit true 5 ||| flagBit f.b 4 |||
    flagBit f.d 3 ||| flagBit f.i 2 ||| flagBit f.z 1 ||| flagBit f.c 0

/-- `unpack(b)` (R25): N, V, D, I, Z, C from bits 7, 6, 3, 2, 1, 0; B unchanged, bits 5 and 4 ignored. -/
def Flags.unpack (f : Flags) (p : Byte) : Flags :=
  { f with n := p.getLsbD 7, v := p.getLsbD 6, d := p.getLsbD 3, i := p.getLsbD 2, z := p.getLsbD 1, c := p.getLsbD 0 }

/-- `setZN(v)` (R122). -/
def Flags.setZN (f : Flags) (r : Byte) : Flags := { f with z := r == 0#8, n := r.getLsbD 7 }

/-- The unreduced sum of an addition with carry (R150, R165): an integer from 0 to 511. -/
def addSum (f : Flags) (a m : Byte) : Nat := a.toNat + m.toNat + f.c.toNat

/-- ADC (R150): the new A and the new flags. V is the sign-consistency test on the old A. D has no effect (R19). -/
def Flags.adc (f : Flags) (a m : Byte) : Byte × Flags :=
  let t := addSum f a m
  let r := BitVec.ofNat 8 t
  (r, { f with c := decide (255 < t), v := ((a ^^^ r) &&& (m ^^^ r) &&& 0x80#8) != 0#8 }.setZN r)

/-- SBC (R151): ADC of the complemented operand. -/
def Flags.sbc (f : Flags) (a m : Byte) : Byte × Flags := f.adc a (m ^^^ 0xFF#8)

/-- CMP, CPX, CPY (R155 to R157): C, Z, N from the register `r` and the operand `m`. -/
def Flags.compare (f : Flags) (r m : Byte) : Flags :=
  { f with c := decide (m.toNat ≤ r.toNat), z := r == m, n := (r - m).getLsbD 7 }

/-- BIT (R158): Z from `A & m`, N and V from bits 7 and 6 of `m`. -/
def Flags.bitTest (f : Flags) (a m : Byte) : Flags :=
  { f with z := (a &&& m) == 0#8, n := m.getLsbD 7, v := m.getLsbD 6 }

/-- What a read-modify-write operation computes: the new byte and the new flags. -/
abbrev ModifyOp := Flags → Byte → Byte × Flags

/-- INC (R159). -/
def Flags.inc : ModifyOp := fun f m => (m + 1#8, f.setZN (m + 1#8))

/-- DEC (R160). -/
def Flags.dec : ModifyOp := fun f m => (m - 1#8, f.setZN (m - 1#8))

/-- ASL (R170): old bit 7 to C, 0 into bit 0. -/
def Flags.asl : ModifyOp := fun f m =>
  let r := m <<< 1
  (r, { f with c := m.getLsbD 7 }.setZN r)

/-- LSR (R171): old bit 0 to C, 0 into bit 7. -/
def Flags.lsr : ModifyOp := fun f m =>
  let r := m >>> 1
  (r, { f with c := m.getLsbD 0 }.setZN r)

/-- ROL (R172): old C into bit 0, old bit 7 to C. -/
def Flags.rol : ModifyOp := fun f m =>
  let r := (m <<< 1) ||| flagBit f.c 0
  (r, { f with c := m.getLsbD 7 }.setZN r)

/-- ROR (R173): old C into bit 7, old bit 0 to C. -/
def Flags.ror : ModifyOp := fun f m =>
  let r := (m >>> 1) ||| flagBit f.c 7
  (r, { f with c := m.getLsbD 0 }.setZN r)

/-- The condition of a branch (R184 to R191), and false for every other mnemonic: the `taken` of R105 is this value. -/
def branchTaken (m : Mnemonic) (f : Flags) : Bool :=
  match m with
  | .bcc => !f.c
  | .bcs => f.c
  | .beq => f.z
  | .bmi => f.n
  | .bne => !f.z
  | .bpl => !f.n
  | .bvc => !f.v
  | .bvs => f.v
  | _ => false

end Sys2Proof.Machine
end

