-- ==== Sys2Proof/Machine/State.lean ====
section
/-! DEFINITION. The state of CORE (spec/10_state.md section 1, R28), the faults (spec/60_exceptions.md R220 to R223), the
refusals, and the state after reset (spec/70_reset_and_hazards.md R240 to R244). -/

namespace Sys2Proof.Machine

/-- The state: plain data. -/
structure State where
  a     : Byte   -- accumulator (R11)
  x     : Byte   -- index register X (R12)
  y     : Byte   -- index register Y (R12)
  sp    : Byte   -- stack pointer (R13)
  pc    : Addr   -- program counter (R14)
  flags : Flags  -- C Z I D B V N (R15)
  bus   : Bus    -- RAM, cartridge, EXTRA_DEVICES (R28)
  tick  : Nat    -- the model's own count: numbers the free values of extra devices (log 6)
  deriving DecidableEq, Repr

/-- The faults a step or a host write returns (R220). Each carries the values the spec records and, as `left`, the state
the spec says the machine is in on return (log 5). Stopping a run there is safe (D4, D17). -/
inductive Fault where
  /-- `IllegalOpcode` (R221): raised by a step whose opcode byte has no table entry; `left` is the state before the step. -/
  | illegalOpcode (opcode : Byte) (pc0 : Addr) (left : State)
  /-- `NotImplemented` (R223): raised by a step whose entry's mnemonic is not in IMPLEMENTED; `left` is the state before
  the step. Never raised by `step`, whose IMPLEMENTED holds every mnemonic. -/
  | notImplemented (opcode : Byte) (mnemonic : Mnemonic) (pc0 : Addr) (left : State)
  /-- `RomWriteViolation` (R222): raised by a write at or above 0x8000; in `left` only PC has advanced. -/
  | romWriteViolation (address : Addr) (value : Byte) (left : State)
  /-- An extra device's own error on a write (R45, R73; log 6): only with EXTRA_DEVICES not empty; `left` as above. -/
  | deviceError (address : Addr) (value : Byte) (left : State)
  deriving DecidableEq, Repr

/-- The refusals: what has no behaviour in the spec. All are safe. -/
inductive Refusal where
  /-- An instruction whose arm in `exec` has no meaning yet. -/
  | notModelled (mnemonic : String)
  /-- Raised by `execForm` where an entry outside R89 pairs an operation that goes through an effective address with a mode
  that has none (R103, R121, log 9). Never raised by `step`. -/
  | noAddress (mnemonic : Mnemonic) (mode : Mode)
  /-- Raised by `readChr` above 0x1FFF or with no CHR bank loaded (R59, U7, log 13). Never raised by `step`. -/
  | chrUnavailable (address : Nat)
  deriving DecidableEq, Repr

/-- What an instruction or a step answers. -/
abbrev Result := Host.Outcome State Fault Refusal

/-- Reset (R240 to R244): the registers and flags at the values of R241, then PC from the little-endian word at 0xFFFC
through the bus (R242). RAM is RAM_INIT, unchanged (R244); the cartridge and EXTRA_DEVICES are construction inputs. -/
def State.powerOn (cart : Cartridge) (ramInit : Memory) (extra : List ExtraDevice) : State where
  a := 0x00#8
  x := 0x00#8
  y := 0x00#8
  sp := Config.resetSp
  pc := Bus.readWord ⟨ramInit, cart, extra⟩ 0 .vectorLow .vectorHigh Config.resetVector
  flags := Flags.reset
  bus := ⟨ramInit, cart, extra⟩
  tick := 0

/-- The machine right after reset, with nothing placed: the blank cartridge (log 3), RAM with nothing listed (log 2), no
extra device (R6). PC is then the blank cartridge's reset vector, 0x0000. -/
def State.reset : State := State.powerOn Cartridge.blank [] []

end Sys2Proof.Machine
end

