-- ==== Sys2Proof/Machine/Ops.lean ====
section
/-! DEFINITION. The named operations over registers and memory: register updates, the CPU's memory primitives
(spec/20_memory.md R61 to R63), the stack (spec/40_step_and_addressing.md R127, R128), taking the BRK trap and returning
from it (spec/60_exceptions.md R225, R226), the host's accesses (R74, R59) and placing bytes from outside (log 3). -/

namespace Sys2Proof.Machine

/-- `A <- v`. -/
def State.setA (s : State) (v : Byte) : State := { s with a := v }

/-- `X <- v`. -/
def State.setX (s : State) (v : Byte) : State := { s with x := v }

/-- `Y <- v`. -/
def State.setY (s : State) (v : Byte) : State := { s with y := v }

/-- `SP <- v`. -/
def State.setSp (s : State) (v : Byte) : State := { s with sp := v }

/-- `PC <- w`. -/
def State.setPc (s : State) (w : Addr) : State := { s with pc := w }

/-- The flags replaced. -/
def State.setFlags (s : State) (f : Flags) : State := { s with flags := f }

/-- What is behind the bus replaced. -/
def State.setBus (s : State) (b : Bus) : State := { s with bus := b }

/-- `setZN(v)` (R122). -/
def State.setZN (s : State) (v : Byte) : State := s.setFlags (s.flags.setZN v)

/-- Advance PC past an instruction of `n` bytes (R104), wrapping in 16 bits, and count the step (log 6). -/
def State.advance (s : State) (n : Nat) : State :=
  { s with pc := s.pc + BitVec.ofNat 16 n, tick := s.tick + 1 }

/-- `MemRead(addr, 1)` (R61). -/
def State.read (s : State) (slot : Config.ReadSlot) (a : Addr) : Byte := s.bus.read s.tick slot a

/-- `MemRead(addr, 2)` (R62). -/
def State.readWord (s : State) (lowSlot highSlot : Config.ReadSlot) (a : Addr) : Addr :=
  s.bus.readWord s.tick lowSlot highSlot a

/-- `MemReadZP(zp, 2)` (R63): the second byte's address wraps inside the zero page. -/
def State.readWordZp (s : State) (zp : Byte) : Addr :=
  mkWord (s.read .pointerHigh (zext16 (zp + 1#8))) (s.read .pointerLow (zext16 zp))

/-- `MemWrite(addr, 1, v)` (R61): a device that refuses ends the step with its fault (R45, R58, R222). -/
def State.write (s : State) (a : Addr) (v : Byte) : Result :=
  match s.bus.write s.tick a v with
  | .ok b => .next (s.setBus b)
  | .error .readOnly => .fault (.romWriteViolation a v s)
  | .error .device => .fault (.deviceError a v s)

/-- The stack address of a value of SP (R13): `0x0100 + s`. -/
def stackAddress (sp : Byte) : Addr := mkWord Config.stackPage sp

/-- `push(v)` (R127). The stack page is RAM, so the write goes to the RAM array and cannot fail (R75). -/
def State.push (s : State) (v : Byte) : State :=
  (s.setBus (s.bus.writeRam (stackAddress s.sp) v)).setSp (s.sp - 1#8)

/-- `pull()` (R128): the byte pulled and the state after. -/
def State.pull (s : State) : Byte × State :=
  let t := s.setSp (s.sp + 1#8)
  (t.read .stack (stackAddress t.sp), t)

/-- A 16-bit return address pushed high byte first (R64, R181, R212). -/
def State.pushWord (s : State) (w : Addr) : State := (s.push (hi w)).push (lo w)

/-- Two pulls, low byte first (R182, R213): the word and the state after. -/
def State.pullWord (s : State) : Addr × State :=
  let l := s.pull
  let h := l.2.pull
  (mkWord h.1 l.1, h.2)

/-- Taking the BRK trap (R212, R225), from the state in which PC has advanced: push PC + 1 and the status byte, set I, load
PC from the BRK vector. Nothing else changes. In mode IMP, BRK's only mode in R89, PC + 1 is `pc0 + 2`; where another
table gives BRK a longer mode the two differ and PC + 1 is the model's choice (DESIGN CHOICE, unsafe, log 15). -/
def State.takeTrap (s : State) : State :=
  let t := (s.pushWord (s.pc + 1#16)).push s.flags.pack
  (t.setFlags { t.flags with i := true }).setPc (t.readWord .vectorLow .vectorHigh Config.brkVector)

/-- Returning from the trap (R213, R226): pull the status byte into the flags (R25), then PC, with no increment. -/
def State.returnFromTrap (s : State) : State :=
  let p := s.pull
  let w := (p.2.setFlags (p.2.flags.unpack p.1)).pullWord
  w.2.setPc w.1

/-- The host's `read` between steps (R74): exactly `bus.read`, no register touched. The access is counted (log 6). -/
def State.hostRead (s : State) (a : Addr) : Byte × State :=
  (s.read .host a, { s with tick := s.tick + 1 })

/-- The host's `write` between steps (R74): exactly `bus.write`, no register touched. -/
def State.hostWrite (s : State) (a : Addr) (v : Byte) : Result :=
  State.write { s with tick := s.tick + 1 } a v

/-- `read_chr` (R59): the CHR bank's byte; refused above 0x1FFF and with no CHR loaded (U7, log 13). -/
def State.readChr (s : State) (address : Nat) : Except Refusal Byte :=
  match s.bus.cart.chr with
  | some bank => if address < Config.chrBank then .ok (bank.read address) else .error (.chrUnavailable address)
  | none => .error (.chrUnavailable address)

/-- Bytes put where the next step fetches, by whoever loads a program (log 3). Where PC lies at addresses that store
nothing (open bus, an extra device), the bytes go to the start of PRG and PC there (log 11). -/
def State.placeAtPc (s : State) (bytes : List Byte) : State :=
  match s.bus.placeAll s.pc bytes with
  | some b => s.setBus b
  | none =>
    match s.bus.placeAll Config.prgStart bytes with
    | some b => (s.setBus b).setPc Config.prgStart
    | none => s

end Sys2Proof.Machine
end

