-- ==== Sys2Proof/Machine/Operands.lean ====
section
/-! DEFINITION. The addressing modes (spec/40_step_and_addressing.md R103, R108 to R120), operand access (R121) and the
shapes in which the instructions use them: every meaning is one of these shapes over one operation. In each, the operand
is resolved from `pc0`, X and Y before PC advances (R103, R104). -/

namespace Sys2Proof

open Machine

/-- The address before an index register is added (R110, R111, R116); absent in the other modes. -/
def MemOperand.base (m : MemOperand) (s : State) : Option Addr :=
  match m with
  | .abx w => some w
  | .aby w => some w
  | .izy b => some (s.readWordZp b)
  | .zp _ | .zpx _ | .zpy _ | .abs _ | .izx _ => none

/-- The effective address of a memory operand (R109 to R111, R115, R116, R118 to R120). -/
def MemOperand.ea (m : MemOperand) (s : State) : Addr :=
  match m with
  | .zp b => zext16 b
  | .zpx b => zext16 (b + s.x)
  | .zpy b => zext16 (b + s.y)
  | .abs w => w
  | .abx w => w + zext16 s.x
  | .aby w => w + zext16 s.y
  | .izx b => s.readWordZp (b + s.x)
  | .izy b => s.readWordZp b + zext16 s.y

/-- The target of a branch (R117): the address after the branch plus the sign-extended offset. -/
def Machine.relTarget (s : State) (off : Byte) : Addr := s.pc + 2#16 + sext16 off

/-- The address IND resolves to (R114): the word stored at the operand address. -/
def Machine.indTarget (s : State) (w : Addr) : Addr := s.readWord .pointerLow .pointerHigh w

/-- `ea` of an operand (R103, R108 to R120): absent for ACC and IMP; `pc0 + 1` for IMM (R112). -/
def Operand.ea (o : Operand) (s : State) : Option Addr :=
  match o with
  | .acc | .imp => none
  | .imm _ => some (s.pc + 1#16)
  | .mem m => some (m.ea s)
  | .ind w => some (indTarget s w)
  | .rel off => some (relTarget s off)

/-- The byte a memory operand holds: one read through `ea` (R121). -/
def MemOperand.load (m : MemOperand) (s : State) : Byte := s.read .operand (m.ea s)

/-- `LoadOperand(mode, ea)` (R121): A in mode ACC, else the byte at `ea`. The byte at `pc0 + 1` of an IMM instruction is
the operand byte the instruction carries (log 7). Absent in mode IMP, which has no `ea`. -/
def Operand.load (o : Operand) (s : State) : Option Byte :=
  match o with
  | .acc => some s.a
  | .imm v => some v
  | .mem m => some (m.load s)
  | .ind w => some (s.read .operand (indTarget s w))
  | .rel off => some (s.read .operand (relTarget s off))
  | .imp => none

namespace Machine

/-- The shape of an instruction with no operand: PC advances, then `f` runs (R104, R105, R113). -/
def implied (f : State → State) (s : State) : Result := .next (f (s.advance 1))

/-- The shape of an instruction that reads an immediate byte (R112, R121). -/
def readImm (f : Byte → State → State) (v : Byte) (s : State) : Result := .next (f v (s.advance 2))

/-- The shape of an instruction that reads a memory operand: one read through `ea` (R121). -/
def readMem (f : Byte → State → State) (m : MemOperand) (s : State) : Result :=
  .next (f (m.load s) (s.advance m.mode.length))

/-- The shape of a store: one write through `ea`, no read (R121, D32). -/
def storeMem (v : Byte) (m : MemOperand) (s : State) : Result :=
  (s.advance m.mode.length).write (m.ea s) v

/-- The shape of a read-modify-write of A (R108, R121): it cannot fault. -/
def modifyAcc (op : ModifyOp) (s : State) : Result :=
  .next (((s.advance 1).setA (op s.flags s.a).1).setFlags (op s.flags s.a).2)

/-- The shape of a read-modify-write of memory (R121): one read, one write, then the flags; a refused write leaves the
flags alone (R222). -/
def modifyMem (op : ModifyOp) (m : MemOperand) (s : State) : Result :=
  let r := op s.flags (m.load s)
  match (s.advance m.mode.length).write (m.ea s) r.1 with
  | .next t => .next (t.setFlags r.2)
  | .fault e => .fault e
  | .refused e => .refused e

/-- The shape of a branch (R183): PC becomes the target when the condition holds, else stays past the branch. -/
def branch (taken : Bool) (off : Byte) (s : State) : Result :=
  let t := s.advance 2
  .next (if taken then t.setPc (relTarget s off) else t)

/-- The shape of a jump to a resolved address (R180). -/
def jump (target : Addr) (s : State) : Result := .next ((s.advance 3).setPc target)

end Machine

end Sys2Proof
end

