-- ==== Sys2Proof/Machine/Cycles.lean ====
section
/-! DEFINITION. The cycle penalty of a step (spec/40_step_and_addressing.md R106, R123, R124). The count is an output
(R125): no register, flag or memory byte depends on it. -/

namespace Sys2Proof.Machine

/-- 1 when two addresses lie in different pages, else 0 (R123, R124). -/
def pageCrossing (w v : Addr) : Nat := if page w = page v then 0 else 1

/-- The penalty of R106 for an entry and its operand: 0 for modifier `none`, R123 for `page_cross`, R124 for `branch`. An
entry outside R89 with modifier `branch` and a mnemonic that is no branch takes none, so its penalty is 0 (DESIGN CHOICE,
unsafe, log 15). -/
def penalty (e : Entry) (o : Operand) (s : State) : Nat :=
  match e.modifier with
  | .none => 0
  | .pageCross =>
    match o with
    | .mem m => (m.base s).elim 0 (fun w => pageCrossing w (m.ea s))
    | .acc | .imp | .imm _ | .ind _ | .rel _ => 0
  | .branch =>
    match o with
    | .rel off =>
      if branchTaken e.mnemonic s.flags then 1 + pageCrossing (s.pc + 2#16) (relTarget s off) else 0
    | .acc | .imp | .imm _ | .mem _ | .ind _ => 0

/-- The count a step returns (R106): base cycles plus penalty. -/
def cycleCount (e : Entry) (o : Operand) (s : State) : Nat := e.baseCycles + penalty e o s

end Sys2Proof.Machine
end

