-- ==== Sys2Proof/Machine/Arithmetic.lean ====
section
/-! DEFINITION. Arithmetic, logic, compare, increment and decrement (spec/42_arithmetic_logic.md R150 to R165). -/

namespace Sys2Proof.Machine

/-- The operation of ADC (R150). -/
def addA (m : Byte) (s : State) : State := (s.setA (s.flags.adc s.a m).1).setFlags (s.flags.adc s.a m).2

/-- The operation of SBC (R151). -/
def subA (m : Byte) (s : State) : State := (s.setA (s.flags.sbc s.a m).1).setFlags (s.flags.sbc s.a m).2

/-- The operation of AND (R152). -/
def andA (m : Byte) (s : State) : State := (s.setA (s.a &&& m)).setZN (s.a &&& m)

/-- The operation of ORA (R153). -/
def orA (m : Byte) (s : State) : State := (s.setA (s.a ||| m)).setZN (s.a ||| m)

/-- The operation of EOR (R154). -/
def eorA (m : Byte) (s : State) : State := (s.setA (s.a ^^^ m)).setZN (s.a ^^^ m)

/-- The operation of CMP (R155). -/
def compareA (m : Byte) (s : State) : State := s.setFlags (s.flags.compare s.a m)

/-- The operation of CPX (R156). -/
def compareX (m : Byte) (s : State) : State := s.setFlags (s.flags.compare s.x m)

/-- The operation of CPY (R157). -/
def compareY (m : Byte) (s : State) : State := s.setFlags (s.flags.compare s.y m)

/-- The operation of BIT (R158). -/
def bitA (m : Byte) (s : State) : State := s.setFlags (s.flags.bitTest s.a m)

/-- ADC IMM (R150). -/
def execAdcImm (v : Byte) (s : State) : Result := readImm addA v s

/-- ADC ZP (R150). -/
def execAdcZp (zp : Byte) (s : State) : Result := readMem addA (.zp zp) s

/-- ADC ZPX (R150). -/
def execAdcZpx (zp : Byte) (s : State) : Result := readMem addA (.zpx zp) s

/-- ADC ABS (R150). -/
def execAdcAbs (w : Addr) (s : State) : Result := readMem addA (.abs w) s

/-- ADC ABX (R150). -/
def execAdcAbx (w : Addr) (s : State) : Result := readMem addA (.abx w) s

/-- ADC ABY (R150). -/
def execAdcAby (w : Addr) (s : State) : Result := readMem addA (.aby w) s

/-- ADC IZX (R150). -/
def execAdcIzx (zp : Byte) (s : State) : Result := readMem addA (.izx zp) s

/-- ADC IZY (R150). -/
def execAdcIzy (zp : Byte) (s : State) : Result := readMem addA (.izy zp) s

/-- SBC IMM (R151). -/
def execSbcImm (v : Byte) (s : State) : Result := readImm subA v s

/-- SBC ZP (R151). -/
def execSbcZp (zp : Byte) (s : State) : Result := readMem subA (.zp zp) s

/-- SBC ZPX (R151). -/
def execSbcZpx (zp : Byte) (s : State) : Result := readMem subA (.zpx zp) s

/-- SBC ABS (R151). -/
def execSbcAbs (w : Addr) (s : State) : Result := readMem subA (.abs w) s

/-- SBC ABX (R151). -/
def execSbcAbx (w : Addr) (s : State) : Result := readMem subA (.abx w) s

/-- SBC ABY (R151). -/
def execSbcAby (w : Addr) (s : State) : Result := readMem subA (.aby w) s

/-- SBC IZX (R151). -/
def execSbcIzx (zp : Byte) (s : State) : Result := readMem subA (.izx zp) s

/-- SBC IZY (R151). -/
def execSbcIzy (zp : Byte) (s : State) : Result := readMem subA (.izy zp) s

/-- AND IMM (R152). -/
def execAndImm (v : Byte) (s : State) : Result := readImm andA v s

/-- AND ZP (R152). -/
def execAndZp (zp : Byte) (s : State) : Result := readMem andA (.zp zp) s

/-- AND ZPX (R152). -/
def execAndZpx (zp : Byte) (s : State) : Result := readMem andA (.zpx zp) s

/-- AND ABS (R152). -/
def execAndAbs (w : Addr) (s : State) : Result := readMem andA (.abs w) s

/-- AND ABX (R152). -/
def execAndAbx (w : Addr) (s : State) : Result := readMem andA (.abx w) s

/-- AND ABY (R152). -/
def execAndAby (w : Addr) (s : State) : Result := readMem andA (.aby w) s

/-- AND IZX (R152). -/
def execAndIzx (zp : Byte) (s : State) : Result := readMem andA (.izx zp) s

/-- AND IZY (R152). -/
def execAndIzy (zp : Byte) (s : State) : Result := readMem andA (.izy zp) s

/-- ORA IMM (R153). -/
def execOraImm (v : Byte) (s : State) : Result := readImm orA v s

/-- ORA ZP (R153). -/
def execOraZp (zp : Byte) (s : State) : Result := readMem orA (.zp zp) s

/-- ORA ZPX (R153). -/
def execOraZpx (zp : Byte) (s : State) : Result := readMem orA (.zpx zp) s

/-- ORA ABS (R153). -/
def execOraAbs (w : Addr) (s : State) : Result := readMem orA (.abs w) s

/-- ORA ABX (R153). -/
def execOraAbx (w : Addr) (s : State) : Result := readMem orA (.abx w) s

/-- ORA ABY (R153). -/
def execOraAby (w : Addr) (s : State) : Result := readMem orA (.aby w) s

/-- ORA IZX (R153). -/
def execOraIzx (zp : Byte) (s : State) : Result := readMem orA (.izx zp) s

/-- ORA IZY (R153). -/
def execOraIzy (zp : Byte) (s : State) : Result := readMem orA (.izy zp) s

/-- EOR IMM (R154). -/
def execEorImm (v : Byte) (s : State) : Result := readImm eorA v s

/-- EOR ZP (R154). -/
def execEorZp (zp : Byte) (s : State) : Result := readMem eorA (.zp zp) s

/-- EOR ZPX (R154). -/
def execEorZpx (zp : Byte) (s : State) : Result := readMem eorA (.zpx zp) s

/-- EOR ABS (R154). -/
def execEorAbs (w : Addr) (s : State) : Result := readMem eorA (.abs w) s

/-- EOR ABX (R154). -/
def execEorAbx (w : Addr) (s : State) : Result := readMem eorA (.abx w) s

/-- EOR ABY (R154). -/
def execEorAby (w : Addr) (s : State) : Result := readMem eorA (.aby w) s

/-- EOR IZX (R154). -/
def execEorIzx (zp : Byte) (s : State) : Result := readMem eorA (.izx zp) s

/-- EOR IZY (R154). -/
def execEorIzy (zp : Byte) (s : State) : Result := readMem eorA (.izy zp) s

/-- CMP IMM (R155). -/
def execCmpImm (v : Byte) (s : State) : Result := readImm compareA v s

/-- CMP ZP (R155). -/
def execCmpZp (zp : Byte) (s : State) : Result := readMem compareA (.zp zp) s

/-- CMP ZPX (R155). -/
def execCmpZpx (zp : Byte) (s : State) : Result := readMem compareA (.zpx zp) s

/-- CMP ABS (R155). -/
def execCmpAbs (w : Addr) (s : State) : Result := readMem compareA (.abs w) s

/-- CMP ABX (R155). -/
def execCmpAbx (w : Addr) (s : State) : Result := readMem compareA (.abx w) s

/-- CMP ABY (R155). -/
def execCmpAby (w : Addr) (s : State) : Result := readMem compareA (.aby w) s

/-- CMP IZX (R155). -/
def execCmpIzx (zp : Byte) (s : State) : Result := readMem compareA (.izx zp) s

/-- CMP IZY (R155). -/
def execCmpIzy (zp : Byte) (s : State) : Result := readMem compareA (.izy zp) s

/-- CPX IMM (R156). -/
def execCpxImm (v : Byte) (s : State) : Result := readImm compareX v s

/-- CPX ZP (R156). -/
def execCpxZp (zp : Byte) (s : State) : Result := readMem compareX (.zp zp) s

/-- CPX ABS (R156). -/
def execCpxAbs (w : Addr) (s : State) : Result := readMem compareX (.abs w) s

/-- CPY IMM (R157). -/
def execCpyImm (v : Byte) (s : State) : Result := readImm compareY v s

/-- CPY ZP (R157). -/
def execCpyZp (zp : Byte) (s : State) : Result := readMem compareY (.zp zp) s

/-- CPY ABS (R157). -/
def execCpyAbs (w : Addr) (s : State) : Result := readMem compareY (.abs w) s

/-- BIT ZP (R158). -/
def execBitZp (zp : Byte) (s : State) : Result := readMem bitA (.zp zp) s

/-- BIT ABS (R158). -/
def execBitAbs (w : Addr) (s : State) : Result := readMem bitA (.abs w) s

/-- INC ZP (R159). -/
def execIncZp (zp : Byte) (s : State) : Result := modifyMem Flags.inc (.zp zp) s

/-- INC ZPX (R159). -/
def execIncZpx (zp : Byte) (s : State) : Result := modifyMem Flags.inc (.zpx zp) s

/-- INC ABS (R159). -/
def execIncAbs (w : Addr) (s : State) : Result := modifyMem Flags.inc (.abs w) s

/-- INC ABX (R159). -/
def execIncAbx (w : Addr) (s : State) : Result := modifyMem Flags.inc (.abx w) s

/-- DEC ZP (R160). -/
def execDecZp (zp : Byte) (s : State) : Result := modifyMem Flags.dec (.zp zp) s

/-- DEC ZPX (R160). -/
def execDecZpx (zp : Byte) (s : State) : Result := modifyMem Flags.dec (.zpx zp) s

/-- DEC ABS (R160). -/
def execDecAbs (w : Addr) (s : State) : Result := modifyMem Flags.dec (.abs w) s

/-- DEC ABX (R160). -/
def execDecAbx (w : Addr) (s : State) : Result := modifyMem Flags.dec (.abx w) s

/-- INX (R161). -/
def execInx (s : State) : Result := implied (fun t => (t.setX (t.x + 1#8)).setZN (t.x + 1#8)) s

/-- INY (R162). -/
def execIny (s : State) : Result := implied (fun t => (t.setY (t.y + 1#8)).setZN (t.y + 1#8)) s

/-- DEX (R163). -/
def execDex (s : State) : Result := implied (fun t => (t.setX (t.x - 1#8)).setZN (t.x - 1#8)) s

/-- DEY (R164). -/
def execDey (s : State) : Result := implied (fun t => (t.setY (t.y - 1#8)).setZN (t.y - 1#8)) s

end Sys2Proof.Machine
end

