-- ==== Sys2Proof/Machine/Control.lean ====
section
/-! DEFINITION. Jumps, subroutine call and return, branches (spec/44_control_flow.md R180 to R191). -/

namespace Sys2Proof.Machine

/-- JMP ABS (R180). -/
def execJmpAbs (w : Addr) (s : State) : Result := jump w s

/-- JMP IND (R180, R114). -/
def execJmpInd (w : Addr) (s : State) : Result := jump (indTarget s w) s

/-- JSR (R181): push the address of the JSR's own last byte, then jump. -/
def execJsr (w : Addr) (s : State) : Result :=
  let t := s.advance 3
  .next ((t.pushWord (t.pc - 1#16)).setPc w)

/-- RTS (R182): pull a word and resume one past it. -/
def execRts (s : State) : Result := implied (fun t => t.pullWord.2.setPc (t.pullWord.1 + 1#16)) s

/-- BCC (R184, R183). -/
def execBcc (off : Byte) (s : State) : Result := branch (branchTaken .bcc s.flags) off s

/-- BCS (R185, R183). -/
def execBcs (off : Byte) (s : State) : Result := branch (branchTaken .bcs s.flags) off s

/-- BEQ (R186, R183). -/
def execBeq (off : Byte) (s : State) : Result := branch (branchTaken .beq s.flags) off s

/-- BMI (R187, R183). -/
def execBmi (off : Byte) (s : State) : Result := branch (branchTaken .bmi s.flags) off s

/-- BNE (R188, R183). -/
def execBne (off : Byte) (s : State) : Result := branch (branchTaken .bne s.flags) off s

/-- BPL (R189, R183). -/
def execBpl (off : Byte) (s : State) : Result := branch (branchTaken .bpl s.flags) off s

/-- BVC (R190, R183). -/
def execBvc (off : Byte) (s : State) : Result := branch (branchTaken .bvc s.flags) off s

/-- BVS (R191, R183). -/
def execBvs (off : Byte) (s : State) : Result := branch (branchTaken .bvs s.flags) off s

end Sys2Proof.Machine
end

