-- ==== Sys2Proof/Machine/LoadStore.lean ====
section
/-! DEFINITION. Loads, stores and register transfers (spec/41_load_store_transfer.md R130 to R141). -/

namespace Sys2Proof.Machine

/-- The operation of LDA (R130): `A <- m; setZN(m)`. -/
def loadA (m : Byte) (s : State) : State := (s.setA m).setZN m

/-- The operation of LDX (R131): `X <- m; setZN(m)`. -/
def loadX (m : Byte) (s : State) : State := (s.setX m).setZN m

/-- The operation of LDY (R132): `Y <- m; setZN(m)`. -/
def loadY (m : Byte) (s : State) : State := (s.setY m).setZN m

/-- LDA IMM (R130). -/
def execLdaImm (v : Byte) (s : State) : Result := readImm loadA v s

/-- LDA ZP (R130). -/
def execLdaZp (zp : Byte) (s : State) : Result := readMem loadA (.zp zp) s

/-- LDA ZPX (R130). -/
def execLdaZpx (zp : Byte) (s : State) : Result := readMem loadA (.zpx zp) s

/-- LDA ABS (R130). -/
def execLdaAbs (w : Addr) (s : State) : Result := readMem loadA (.abs w) s

/-- LDA ABX (R130). -/
def execLdaAbx (w : Addr) (s : State) : Result := readMem loadA (.abx w) s

/-- LDA ABY (R130). -/
def execLdaAby (w : Addr) (s : State) : Result := readMem loadA (.aby w) s

/-- LDA IZX (R130). -/
def execLdaIzx (zp : Byte) (s : State) : Result := readMem loadA (.izx zp) s

/-- LDA IZY (R130). -/
def execLdaIzy (zp : Byte) (s : State) : Result := readMem loadA (.izy zp) s

/-- LDX IMM (R131). -/
def execLdxImm (v : Byte) (s : State) : Result := readImm loadX v s

/-- LDX ZP (R131). -/
def execLdxZp (zp : Byte) (s : State) : Result := readMem loadX (.zp zp) s

/-- LDX ZPY (R131). -/
def execLdxZpy (zp : Byte) (s : State) : Result := readMem loadX (.zpy zp) s

/-- LDX ABS (R131). -/
def execLdxAbs (w : Addr) (s : State) : Result := readMem loadX (.abs w) s

/-- LDX ABY (R131). -/
def execLdxAby (w : Addr) (s : State) : Result := readMem loadX (.aby w) s

/-- LDY IMM (R132). -/
def execLdyImm (v : Byte) (s : State) : Result := readImm loadY v s

/-- LDY ZP (R132). -/
def execLdyZp (zp : Byte) (s : State) : Result := readMem loadY (.zp zp) s

/-- LDY ZPX (R132). -/
def execLdyZpx (zp : Byte) (s : State) : Result := readMem loadY (.zpx zp) s

/-- LDY ABS (R132). -/
def execLdyAbs (w : Addr) (s : State) : Result := readMem loadY (.abs w) s

/-- LDY ABX (R132). -/
def execLdyAbx (w : Addr) (s : State) : Result := readMem loadY (.abx w) s

/-- STA ZP (R133). -/
def execStaZp (zp : Byte) (s : State) : Result := storeMem s.a (.zp zp) s

/-- STA ZPX (R133). -/
def execStaZpx (zp : Byte) (s : State) : Result := storeMem s.a (.zpx zp) s

/-- STA ABS (R133). -/
def execStaAbs (w : Addr) (s : State) : Result := storeMem s.a (.abs w) s

/-- STA ABX (R133). -/
def execStaAbx (w : Addr) (s : State) : Result := storeMem s.a (.abx w) s

/-- STA ABY (R133). -/
def execStaAby (w : Addr) (s : State) : Result := storeMem s.a (.aby w) s

/-- STA IZX (R133). -/
def execStaIzx (zp : Byte) (s : State) : Result := storeMem s.a (.izx zp) s

/-- STA IZY (R133). -/
def execStaIzy (zp : Byte) (s : State) : Result := storeMem s.a (.izy zp) s

/-- STX ZP (R134). -/
def execStxZp (zp : Byte) (s : State) : Result := storeMem s.x (.zp zp) s

/-- STX ZPY (R134). -/
def execStxZpy (zp : Byte) (s : State) : Result := storeMem s.x (.zpy zp) s

/-- STX ABS (R134). -/
def execStxAbs (w : Addr) (s : State) : Result := storeMem s.x (.abs w) s

/-- STY ZP (R135). -/
def execStyZp (zp : Byte) (s : State) : Result := storeMem s.y (.zp zp) s

/-- STY ZPX (R135). -/
def execStyZpx (zp : Byte) (s : State) : Result := storeMem s.y (.zpx zp) s

/-- STY ABS (R135). -/
def execStyAbs (w : Addr) (s : State) : Result := storeMem s.y (.abs w) s

/-- TAX (R136): `X <- A; setZN(X)`. -/
def execTax (s : State) : Result := implied (fun t => loadX t.a t) s

/-- TAY (R137): `Y <- A; setZN(Y)`. -/
def execTay (s : State) : Result := implied (fun t => loadY t.a t) s

/-- TXA (R138): `A <- X; setZN(A)`. -/
def execTxa (s : State) : Result := implied (fun t => loadA t.x t) s

/-- TYA (R139): `A <- Y; setZN(A)`. -/
def execTya (s : State) : Result := implied (fun t => loadA t.y t) s

/-- TSX (R140): `X <- SP; setZN(X)`. -/
def execTsx (s : State) : Result := implied (fun t => loadX t.sp t) s

/-- TXS (R141): `SP <- X`, no flag. -/
def execTxs (s : State) : Result := implied (fun t => t.setSp t.x) s

end Sys2Proof.Machine
end

