-- ==== Sys2Proof/Machine/Shift.lean ====
section
/-! DEFINITION. Shifts and rotates (spec/43_shift_rotate.md R170 to R173). -/

namespace Sys2Proof.Machine

/-- ASL ACC (R170). -/
def execAslAcc (s : State) : Result := modifyAcc Flags.asl s

/-- ASL ZP (R170). -/
def execAslZp (zp : Byte) (s : State) : Result := modifyMem Flags.asl (.zp zp) s

/-- ASL ZPX (R170). -/
def execAslZpx (zp : Byte) (s : State) : Result := modifyMem Flags.asl (.zpx zp) s

/-- ASL ABS (R170). -/
def execAslAbs (w : Addr) (s : State) : Result := modifyMem Flags.asl (.abs w) s

/-- ASL ABX (R170). -/
def execAslAbx (w : Addr) (s : State) : Result := modifyMem Flags.asl (.abx w) s

/-- LSR ACC (R171). -/
def execLsrAcc (s : State) : Result := modifyAcc Flags.lsr s

/-- LSR ZP (R171). -/
def execLsrZp (zp : Byte) (s : State) : Result := modifyMem Flags.lsr (.zp zp) s

/-- LSR ZPX (R171). -/
def execLsrZpx (zp : Byte) (s : State) : Result := modifyMem Flags.lsr (.zpx zp) s

/-- LSR ABS (R171). -/
def execLsrAbs (w : Addr) (s : State) : Result := modifyMem Flags.lsr (.abs w) s

/-- LSR ABX (R171). -/
def execLsrAbx (w : Addr) (s : State) : Result := modifyMem Flags.lsr (.abx w) s

/-- ROL ACC (R172). -/
def execRolAcc (s : State) : Result := modifyAcc Flags.rol s

/-- ROL ZP (R172). -/
def execRolZp (zp : Byte) (s : State) : Result := modifyMem Flags.rol (.zp zp) s

/-- ROL ZPX (R172). -/
def execRolZpx (zp : Byte) (s : State) : Result := modifyMem Flags.rol (.zpx zp) s

/-- ROL ABS (R172). -/
def execRolAbs (w : Addr) (s : State) : Result := modifyMem Flags.rol (.abs w) s

/-- ROL ABX (R172). -/
def execRolAbx (w : Addr) (s : State) : Result := modifyMem Flags.rol (.abx w) s

/-- ROR ACC (R173). -/
def execRorAcc (s : State) : Result := modifyAcc Flags.ror s

/-- ROR ZP (R173). -/
def execRorZp (zp : Byte) (s : State) : Result := modifyMem Flags.ror (.zp zp) s

/-- ROR ZPX (R173). -/
def execRorZpx (zp : Byte) (s : State) : Result := modifyMem Flags.ror (.zpx zp) s

/-- ROR ABS (R173). -/
def execRorAbs (w : Addr) (s : State) : Result := modifyMem Flags.ror (.abs w) s

/-- ROR ABX (R173). -/
def execRorAbx (w : Addr) (s : State) : Result := modifyMem Flags.ror (.abx w) s

end Sys2Proof.Machine
end

