-- ==== Sys2Proof/Machine/StackSystem.lean ====
section
/-! DEFINITION. Stack, flag, no-operation and system instructions (spec/45_stack_flags_system.md R200 to R213). -/

namespace Sys2Proof.Machine

/-- PHA (R200). -/
def execPha (s : State) : Result := implied (fun t => t.push t.a) s

/-- PHP (R201). -/
def execPhp (s : State) : Result := implied (fun t => t.push t.flags.pack) s

/-- The operation of PLA (R202) on the byte pulled and the state after the pull. -/
def loadPulled (p : Byte × State) : State := (p.2.setA p.1).setZN p.1

/-- PLA (R202). -/
def execPla (s : State) : Result := implied (fun t => loadPulled t.pull) s

/-- PLP (R203). -/
def execPlp (s : State) : Result := implied (fun t => t.pull.2.setFlags (t.flags.unpack t.pull.1)) s

/-- CLC (R204). -/
def execClc (s : State) : Result := implied (fun t => t.setFlags { t.flags with c := false }) s

/-- SEC (R205). -/
def execSec (s : State) : Result := implied (fun t => t.setFlags { t.flags with c := true }) s

/-- CLI (R206). -/
def execCli (s : State) : Result := implied (fun t => t.setFlags { t.flags with i := false }) s

/-- SEI (R207). -/
def execSei (s : State) : Result := implied (fun t => t.setFlags { t.flags with i := true }) s

/-- CLD (R208). -/
def execCld (s : State) : Result := implied (fun t => t.setFlags { t.flags with d := false }) s

/-- SED (R209). -/
def execSed (s : State) : Result := implied (fun t => t.setFlags { t.flags with d := true }) s

/-- CLV (R210). -/
def execClv (s : State) : Result := implied (fun t => t.setFlags { t.flags with v := false }) s

/-- NOP (R211): PC has advanced and nothing else happens. -/
def execNop (s : State) : Result := implied (fun t => t) s

/-- BRK (R212): takes the trap. -/
def execBrk (s : State) : Result := implied State.takeTrap s

/-- RTI (R213): returns from the trap. -/
def execRti (s : State) : Result := implied State.returnFromTrap s

end Sys2Proof.Machine
end

