-- ==== Sys2Proof/Machine/Forms.lean ====
section
/-! DEFINITION. The operation of a mnemonic through any operand (spec/40_step_and_addressing.md R105, R121). A well-formed
table may pair a mnemonic with any of the 13 modes (spec/30_encoding.md R87, R88); `exec` is this at the pairs of R89
(`exec_eq_execForm`). -/

namespace Sys2Proof.Machine

/-- The operation of a mnemonic that reads one operand byte (R130 to R132, R150 to R158). -/
def readOperation : Mnemonic → Option (Byte → State → State)
  | .lda => some loadA
  | .ldx => some loadX
  | .ldy => some loadY
  | .adc => some addA
  | .sbc => some subA
  | .and => some andA
  | .ora => some orA
  | .eor => some eorA
  | .cmp => some compareA
  | .cpx => some compareX
  | .cpy => some compareY
  | .bit => some bitA
  | _ => none

/-- The operation of a mnemonic that uses no operand (R136 to R141, R161 to R164, R182, R200 to R213). -/
def impliedOperation : Mnemonic → Option (State → State)
  | .tax => some fun t => loadX t.a t
  | .tay => some fun t => loadY t.a t
  | .txa => some fun t => loadA t.x t
  | .tya => some fun t => loadA t.y t
  | .tsx => some fun t => loadX t.sp t
  | .txs => some fun t => t.setSp t.x
  | .inx => some fun t => (t.setX (t.x + 1#8)).setZN (t.x + 1#8)
  | .iny => some fun t => (t.setY (t.y + 1#8)).setZN (t.y + 1#8)
  | .dex => some fun t => (t.setX (t.x - 1#8)).setZN (t.x - 1#8)
  | .dey => some fun t => (t.setY (t.y - 1#8)).setZN (t.y - 1#8)
  | .rts => some fun t => t.pullWord.2.setPc (t.pullWord.1 + 1#16)
  | .pha => some fun t => t.push t.a
  | .php => some fun t => t.push t.flags.pack
  | .pla => some fun t => loadPulled t.pull
  | .plp => some fun t => t.pull.2.setFlags (t.flags.unpack t.pull.1)
  | .clc => some fun t => t.setFlags { t.flags with c := false }
  | .sec => some fun t => t.setFlags { t.flags with c := true }
  | .cli => some fun t => t.setFlags { t.flags with i := false }
  | .sei => some fun t => t.setFlags { t.flags with i := true }
  | .cld => some fun t => t.setFlags { t.flags with d := false }
  | .sed => some fun t => t.setFlags { t.flags with d := true }
  | .clv => some fun t => t.setFlags { t.flags with v := false }
  | .nop => some fun t => t
  | .brk => some State.takeTrap
  | .rti => some State.returnFromTrap
  | _ => none

/-- The register a store writes (R133 to R135). -/
def storedRegister (m : Mnemonic) (s : State) : Option Byte :=
  match m with
  | .sta => some s.a
  | .stx => some s.x
  | .sty => some s.y
  | _ => none

/-- The operation of a read-modify-write mnemonic (R159, R160, R170 to R173). -/
def modifyOperation : Mnemonic → Option ModifyOp
  | .inc => some Flags.inc
  | .dec => some Flags.dec
  | .asl => some Flags.asl
  | .lsr => some Flags.lsr
  | .rol => some Flags.rol
  | .ror => some Flags.ror
  | _ => none

/-- `StoreOperand(mode, ea, v)` (R121) of an operand resolved in `s`, from `t`, in which PC has advanced: A in mode ACC,
else the bus write at `ea`; absent in mode IMP, which has no `ea`. -/
def storeOperand (o : Operand) (s : State) (v : Byte) (t : State) : Option Result :=
  match o with
  | .acc => some (.next (t.setA v))
  | .imp | .imm _ | .mem _ | .ind _ | .rel _ => (o.ea s).map (fun a => t.write a v)

/-- A read-modify-write through any operand (R121): one load, one store, then the flags unless the store is refused. -/
def modifyOperand (op : ModifyOp) (o : Operand) (s t : State) : Option Result :=
  (o.load s).bind (fun v => (storeOperand o s (op s.flags v).1 t).map (fun r =>
    match r with
    | .next u => .next (u.setFlags (op s.flags v).2)
    | .fault e => .fault e
    | .refused e => .refused e))

/-- A transfer of control to `ea` as a number (R121): JMP (R180), JSR (R181), or a branch (R183), which goes nowhere when
its condition does not hold. JSR's return address is the advanced PC less 1 and a branch not taken stays at the advanced
PC, in modes of any length (outside R89 the model's choice: DESIGN CHOICE, unsafe, log 15). -/
def transferControl (m : Mnemonic) (o : Operand) (s t : State) : Option Result :=
  match m with
  | .jmp => (o.ea s).map (fun a => .next (t.setPc a))
  | .jsr => (o.ea s).map (fun a => .next ((t.pushWord (t.pc - 1#16)).setPc a))
  | _ => if branchTaken m s.flags then (o.ea s).map (fun a => .next (t.setPc a)) else some (.next t)

/-- The operation of the mnemonic on the operand (R104, R105): absent where it goes through an `ea` that the mode does not
have. -/
def operate (m : Mnemonic) (o : Operand) (s : State) : Option Result :=
  let t := s.advance o.mode.length
  match readOperation m, storedRegister m s, modifyOperation m, impliedOperation m with
  | some f, _, _, _ => (o.load s).map (fun v => .next (f v t))
  | none, some v, _, _ => storeOperand o s v t
  | none, none, some op, _ => modifyOperand op o s t
  | none, none, none, some f => some (.next (f t))
  | none, none, none, none => transferControl m o s t

/-- `operate`, with the refusal of an absent `ea` (log 9). -/
def execForm (m : Mnemonic) (o : Operand) (s : State) : Result :=
  (operate m o s).getD (.refused (.noAddress m o.mode))

end Sys2Proof.Machine
end

