-- ==== Sys2Proof/Machine/Run.lean ====
section
/-! DEFINITION. One step under given parameters (spec/40_step_and_addressing.md R100 to R107; spec/60_exceptions.md R220):
fetch, decode, then `exec` (which resolves, advances and executes), then account. -/

namespace Sys2Proof.Machine

/-- The outcome of a step as the spec gives it (R220): a cycle count with the new state, or a fault. A refusal arises only
at an entry outside R89 whose operation has no address to go through (log 9). -/
inductive StepResult where
  | ok (cycles : Nat) (s : State)
  | fault (f : Fault)
  | refused (r : Refusal)
  deriving DecidableEq, Repr

/-- The outcome without the cycle count (R125). -/
def StepResult.outcome : StepResult → Result
  | .ok _ s => .next s
  | .fault f => .fault f
  | .refused r => .refused r

/-- The cycle count returned; a step that ends in a fault returns none (R106). -/
def StepResult.cycles : StepResult → Option Nat
  | .ok n _ => some n
  | .fault _ => none
  | .refused _ => none

/-- The count put beside an instruction's outcome (R106). -/
def account (cycles : Nat) : Result → StepResult
  | .next s => .ok cycles s
  | .fault f => .fault f
  | .refused r => .refused r

/-- The opcode byte of the next step (R101). -/
def State.opcodeByte (s : State) : Byte := s.read .opcode s.pc

/-- The bytes at PC: the opcode and the two that may be operand bytes (R80, R84), their addresses wrapping. How many of
them an instruction reads is its mode's matter (`stepTransactions`); reading more changes nothing (R66, log 14). -/
def State.fetchBytes (s : State) : List Byte :=
  [s.opcodeByte, s.read .operandLow (s.pc + 1#16), s.read .operandHigh (s.pc + 2#16)]

/-- The operand of a mode, from the bytes after the opcode (R84). -/
def State.fetchOperand (s : State) (mode : Mode) : Operand :=
  operandOf mode (s.read .operandLow (s.pc + 1#16)) (s.read .operandHigh (s.pc + 2#16))

/-- One step under the parameters `p`, whose table is well-formed (R88, R100). A lookup miss and an entry not in
IMPLEMENTED end it before anything has changed (R102). An entry of R89 decodes to an instruction; any other runs its
mnemonic's operation through its operand. -/
def runStep (p : Params) (s : State) : StepResult :=
  match p.table.lookup s.opcodeByte with
  | none => .fault (.illegalOpcode s.opcodeByte s.pc s)
  | some e =>
    if p.implemented.contains e.mnemonic then
      match decodeWith p.table s.fetchBytes with
      | .ok (i, _) => account (cycleCount e i.operand s) (exec i s)
      | .error _ => account (cycleCount e (s.fetchOperand e.mode) s) (execForm e.mnemonic (s.fetchOperand e.mode) s)
    else .fault (.notImplemented s.opcodeByte e.mnemonic s.pc s)

/-- The cycle count CORE's step from `s` returns (R106). -/
def stepCycles (s : State) : Option Nat := (runStep .core s).cycles

end Sys2Proof.Machine
end

