-- ==== Sys2Proof/Machine/Step.lean ====
section
/-! DEFINITION. The step of CORE (spec/40_step_and_addressing.md R100) and how a host places an instruction where the next
step fetches it (log 3). -/

namespace Sys2Proof.Machine

/-- One step of CORE: `runStep` at the default parameters (R6), less the cycle count. -/
def step (s : State) : Host.Outcome State Fault Refusal := (runStep .core s).outcome

/-- The instruction word `w` of `nbits` bits stored where the next step fetches. -/
def State.withFetchWord (s : State) (nbits w : Nat) : State := s.placeAtPc (tableWordBytes nbits w)

end Sys2Proof.Machine
end

