-- ==== Sys2Proof/Machine/Trace.lean ====
section
/-! DEFINITION. The bus transactions of a step, in order (spec/40_step_and_addressing.md R107, R126). They are an output,
as the cycle count is: the list is computed from the state before the step and is no part of State (R29, log 1). -/

namespace Sys2Proof.Machine

/-- One byte read or one byte write on the bus (spec/00_scope.md R2). A refused write is listed: it was attempted. -/
inductive Transaction where
  | read (address : Addr) (value : Byte)
  | write (address : Addr) (value : Byte)
  deriving DecidableEq, Repr

/-- R126 (1): the opcode read at `pc0`. -/
def opcodeTransaction (s : State) : Transaction := .read s.pc s.opcodeByte

/-- R126 (2): the operand bytes at `pc0 + 1`, then `pc0 + 2`, as many as R84 lists for the mode; the byte of mode IMM is
read by the operation. -/
def operandByteTransactions (o : Operand) (s : State) : List Transaction :=
  match o with
  | .imm _ => []
  | .acc | .imp | .mem _ | .ind _ | .rel _ =>
    [.read (s.pc + 1#16) (s.read .operandLow (s.pc + 1#16)),
      .read (s.pc + 2#16) (s.read .operandHigh (s.pc + 2#16))].take (o.mode.length - 1)

/-- The two reads of a zero-page pointer (R63). -/
def zpPointerTransactions (zp : Byte) (s : State) : List Transaction :=
  [.read (zext16 zp) (s.read .pointerLow (zext16 zp)),
    .read (zext16 (zp + 1#8)) (s.read .pointerHigh (zext16 (zp + 1#8)))]

/-- R126 (3): the pointer reads of IND, IZX, IZY, low byte first. -/
def pointerTransactions (o : Operand) (s : State) : List Transaction :=
  match o with
  | .ind w =>
    [.read w (s.read .pointerLow w), .read (w + 1#16) (s.read .pointerHigh (w + 1#16))]
  | .mem (.izx zp) => zpPointerTransactions (zp + s.x) s
  | .mem (.izy zp) => zpPointerTransactions zp s
  | _ => []

/-- The read of `LoadOperand` (R121): none in mode ACC. -/
def loadTransactions (o : Operand) (s : State) : List Transaction :=
  match o with
  | .acc | .imp => []
  | .imm _ => [.read (s.pc + 1#16) (s.read .operandLow (s.pc + 1#16))]
  | .mem m => [.read (m.ea s) (m.load s)]
  | .ind w => [.read (indTarget s w) (s.read .operand (indTarget s w))]
  | .rel off => [.read (relTarget s off) (s.read .operand (relTarget s off))]

/-- The write of `StoreOperand` (R121): none in mode ACC. -/
def storeTransactions (o : Operand) (v : Byte) (s : State) : List Transaction :=
  (o.ea s).toList.map (fun a => .write a v)

/-- R126 (4), (5) through `ea` (R121): a store writes once, a read-modify-write reads then writes, an operation that reads
an operand reads once; a transfer of control uses `ea` as a number only. -/
def memoryTransactions (m : Mnemonic) (o : Operand) (s : State) : List Transaction :=
  match readOperation m, storedRegister m s, modifyOperation m with
  | some _, _, _ => loadTransactions o s
  | none, some v, _ => storeTransactions o v s
  | none, none, some op =>
    match o.load s with
    | some v => loadTransactions o s ++ storeTransactions o (op s.flags v).1 s
    | none => []
  | none, none, none => []

/-- Pushes in order, from SP = `sp` (R127). -/
def pushTransactions (sp : Byte) : List Byte → List Transaction
  | [] => []
  | v :: vs => .write (stackAddress sp) v :: pushTransactions (sp - 1#8) vs

/-- `n` pulls in order, from SP = `sp` (R128). -/
def pullTransactions (s : State) (sp : Byte) : Nat → List Transaction
  | 0 => []
  | n + 1 =>
    .read (stackAddress (sp + 1#8)) (s.read .stack (stackAddress (sp + 1#8))) :: pullTransactions s (sp + 1#8) n

/-- R126 (4), (5) on the stack, JSR and BRK pushing the return address they take from the advanced PC (R181, R212, log 15).
BRK's vector reads follow its pushes. -/
def stackTransactions (m : Mnemonic) (o : Operand) (s : State) : List Transaction :=
  let t := s.advance o.mode.length
  match m with
  | .pha => pushTransactions s.sp [s.a]
  | .php => pushTransactions s.sp [s.flags.pack]
  | .pla | .plp => pullTransactions s s.sp 1
  | .jsr =>
    match o.ea s with
    | some _ => pushTransactions s.sp [hi (t.pc - 1#16), lo (t.pc - 1#16)]
    | none => []
  | .rts => pullTransactions s s.sp 2
  | .brk =>
    pushTransactions s.sp [hi (t.pc + 1#16), lo (t.pc + 1#16), s.flags.pack] ++
      [.read Config.brkVector (s.read .vectorLow Config.brkVector),
        .read (Config.brkVector + 1#16) (s.read .vectorHigh (Config.brkVector + 1#16))]
  | .rti => pullTransactions s s.sp 3
  | _ => []

/-- The transactions of a mnemonic with an operand (R126). -/
def formTransactions (m : Mnemonic) (o : Operand) (s : State) : List Transaction :=
  opcodeTransaction s :: (operandByteTransactions o s ++ pointerTransactions o s ++ memoryTransactions m o s ++
    stackTransactions m o s)

/-- The transactions of the instruction `i` at `s` (R126). -/
def instrTransactions (i : Instr) (s : State) : List Transaction := formTransactions i.mnemonic i.operand s

/-- The transactions of a step: one that ends in its decode part has made the opcode read only (R102). -/
def runTransactions (p : Params) (s : State) : List Transaction :=
  match p.table.lookup s.opcodeByte with
  | none => [opcodeTransaction s]
  | some e =>
    if p.implemented.contains e.mnemonic then formTransactions e.mnemonic (s.fetchOperand e.mode) s
    else [opcodeTransaction s]

/-- The transactions of CORE's step from `s`. -/
def stepTransactions (s : State) : List Transaction := runTransactions .core s

/-- The transactions of reset (R242): the two reads of the reset vector, low byte first. -/
def resetTransactions (b : Bus) : List Transaction :=
  [.read Config.resetVector (b.read 0 .vectorLow Config.resetVector),
    .read (Config.resetVector + 1#16) (b.read 0 .vectorHigh (Config.resetVector + 1#16))]

/-- What a list of transactions leaves behind the bus: each write to RAM lands, every other changes nothing stored. -/
def replayWrites (b : Bus) : List Transaction → Bus
  | [] => b
  | .read _ _ :: ts => replayWrites b ts
  | .write a v :: ts =>
    match b.route a with
    | some .ram => replayWrites (b.writeRam a v) ts
    | _ => replayWrites b ts

end Sys2Proof.Machine
end

