-- ==== Sys2Proof/Safety.lean ====
section
/-! DEFINITION. What claims are stated in: the invariant, the reachable states, runs and their end, and the vocabulary of the
statements about instructions. -/

namespace Sys2Proof.Machine

/-- The state the machine is in when a step returns the fault (spec/60_exceptions.md R221 to R223, log 5). -/
def Fault.left : Fault → State
  | .illegalOpcode _ _ s | .notImplemented _ _ _ s | .romWriteViolation _ _ s | .deviceError _ _ s => s

/-- The invariant of CORE: the arrays behind the bus are canonical and of their sizes, and B is 1 (spec/10_state.md R26). -/
def State.Inv (s : State) : Prop := s.bus.wf = true ∧ s.flags.b = true

/-- The CORE configuration (spec/20_memory.md R42, R60): EXTRA_DEVICES is empty. -/
def State.CoreConfiguration (s : State) : Prop := s.bus.extra = []

/-- `k` steps from `s` end in `t`, none of them a fault: a safe run of `k` steps. -/
def SafeRun (k : Nat) (s t : State) : Prop := Host.Core.run Sys2Proof.core k s = .next t

/-- A run meets the end condition its host chose (spec/70_reset_and_hazards.md R254) without a fault. -/
def RunEnds (stop : State → Bool) (s : State) : Prop := ∃ k t, SafeRun k s t ∧ stop t = true

/-- The states a power-on starts from: any cartridge that construction yields (R53), any RAM_INIT (R244), any
EXTRA_DEVICES (R73). -/
def PoweredOn (s : State) : Prop :=
  ∃ prgRom chrRom number cart ramInit extra,
    construct prgRom chrRom number = .ok cart ∧ ramInit.wf Config.ramSize = true ∧ s = State.powerOn cart ramInit extra

/-- The states CORE reaches from a power-on: by steps, by the host's accesses between steps (R74, R255), and by stepping
on from the state a `RomWriteViolation` left (R107, R222). -/
inductive Reachable : State → Prop where
  | powerOn {s : State} : PoweredOn s → Reachable s
  | step {s t : State} : Reachable s → Machine.step s = .next t → Reachable t
  | resume {s left : State} {a : Addr} {v : Byte} :
    Reachable s → Machine.step s = .fault (.romWriteViolation a v left) → Reachable left
  | hostRead {s : State} (a : Addr) : Reachable s → Reachable (s.hostRead a).2
  | hostWrite {s t : State} {a : Addr} {v : Byte} : Reachable s → s.hostWrite a v = .next t → Reachable t

/-- The 105 byte values with no entry in the default table, as spec/30_encoding.md R90 lists them. -/
def unassignedBytes : List Byte :=
  [ 0x02#8, 0x03#8, 0x04#8, 0x07#8, 0x0B#8, 0x0C#8, 0x0F#8, 0x12#8, 0x13#8, 0x14#8, 0x17#8, 0x1A#8,
    0x1B#8, 0x1C#8, 0x1F#8, 0x22#8, 0x23#8, 0x27#8, 0x2B#8, 0x2F#8, 0x32#8, 0x33#8, 0x34#8, 0x37#8,
    0x3A#8, 0x3B#8, 0x3C#8, 0x3F#8, 0x42#8, 0x43#8, 0x44#8, 0x47#8, 0x4B#8, 0x4F#8, 0x52#8, 0x53#8,
    0x54#8, 0x57#8, 0x5A#8, 0x5B#8, 0x5C#8, 0x5F#8, 0x62#8, 0x63#8, 0x64#8, 0x67#8, 0x6B#8, 0x6F#8,
    0x72#8, 0x73#8, 0x74#8, 0x77#8, 0x7A#8, 0x7B#8, 0x7C#8, 0x7F#8, 0x80#8, 0x82#8, 0x83#8, 0x87#8,
    0x89#8, 0x8B#8, 0x8F#8, 0x92#8, 0x93#8, 0x97#8, 0x9B#8, 0x9C#8, 0x9E#8, 0x9F#8, 0xA3#8, 0xA7#8,
    0xAB#8, 0xAF#8, 0xB2#8, 0xB3#8, 0xB7#8, 0xBB#8, 0xBF#8, 0xC2#8, 0xC3#8, 0xC7#8, 0xCB#8, 0xCF#8,
    0xD2#8, 0xD3#8, 0xD4#8, 0xD7#8, 0xDA#8, 0xDB#8, 0xDC#8, 0xDF#8, 0xE2#8, 0xE3#8, 0xE7#8, 0xEB#8,
    0xEF#8, 0xF2#8, 0xF3#8, 0xF4#8, 0xF7#8, 0xFA#8, 0xFB#8, 0xFC#8, 0xFF#8 ]

/-- The rows the default table gives a mnemonic, in ascending order of the opcode byte: mode, opcode byte, base cycles and
modifier, as spec/30_encoding.md R89 prints them. -/
def rowsOf (m : Mnemonic) : List (Mode × Byte × Nat × Modifier) :=
  (OpcodeTable.mos6502.filter (fun e => e.mnemonic == m)).map
    (fun e => (e.mode, e.opcode, e.baseCycles, e.modifier))

/-- `r` is what a write of `v` at `ea` leads to from `t`, the state in which PC has advanced: below 0x2000 the RAM cell
`ea mod 2048` takes it (spec/20_memory.md R50); from 0x8000 on the step ends in `RomWriteViolation` (R58); between, it is
dropped where no device claims the address (R45), and an extra device either takes it or refuses (R73). `finish` is what
the instruction does after a write that is not refused. -/
def WritesByte (t : State) (ea : Addr) (v : Byte) (finish : State → State) (r : Result) : Prop :=
  (ea.toNat < 0x2000 →
    r = .next (finish { t with bus := { t.bus with ram := t.bus.ram.write (ea.toNat % 2048) v } })) ∧
  (0x8000 ≤ ea.toNat → r = .fault (.romWriteViolation ea v t)) ∧
  (0x2000 ≤ ea.toNat → ea.toNat < 0x8000 → t.bus.claimed ea = false → r = .next (finish t)) ∧
  (0x2000 ≤ ea.toNat → ea.toNat < 0x8000 → t.bus.claimed ea = true →
    r = .next (finish t) ∨ r = .fault (.deviceError ea v t))

/-- The instruction reads its operand byte `m` once, in A (mode ACC) or through its effective address, replaces it by
`result m` there, and then makes the flags `flags m` (spec/40_step_and_addressing.md R121). -/
def ModifiesOperand (i : Instr) (s : State) (result : Byte → Byte) (flags : Byte → Flags) : Prop :=
  match i.operand with
  | .acc => exec i s = .next { s.advance i.length with a := result s.a, flags := flags s.a }
  | .mem m =>
    WritesByte (s.advance i.length) (m.ea s) (result (s.read .operand (m.ea s)))
      (fun t => { t with flags := flags (s.read .operand (m.ea s)) }) (exec i s)
  | .imp | .imm _ | .ind _ | .rel _ => False

/-- The instruction writes the byte `v` through its effective address and does nothing else (R121, R133 to R135). -/
def StoresByte (i : Instr) (s : State) (v : Byte) : Prop :=
  ∃ m, i.operand = .mem m ∧ WritesByte (s.advance i.length) (m.ea s) v (fun t => t) (exec i s)

/-- The mnemonics of the read-modify-write instructions (R121). -/
def modifiers : List Mnemonic := [.inc, .dec, .asl, .lsr, .rol, .ror]

/-- The instruction stores to memory: the stores, the read-modify-writes of memory, the pushes (R121, R127). -/
def Stores (i : Instr) : Prop :=
  i.mnemonic ∈ [Mnemonic.sta, .stx, .sty, .pha, .php, .jsr, .brk] ∨ (i.mnemonic ∈ modifiers ∧ i.operand ≠ .acc)

/-- Two addresses name one RAM cell (spec/20_memory.md R51). -/
def SameCell (a b : Addr) : Prop := a.toNat < 0x2000 ∧ b.toNat < 0x2000 ∧ a.toNat % 2048 = b.toNat % 2048

end Sys2Proof.Machine
end

