-- ==== Sys2Proof/Certificates/Slice0/Obligations.lean ====
section
/-! DEFINITION. The statements for the provers. Each docstring cites the rules of spec/ it formalises. -/

open Sys2Proof Sys2Proof.Machine

/-! ## Encoding and decoding -/

/-- R80 to R84, R86, R96: encoding an instruction and decoding the bytes gives it back, with whatever follows, for the
default table and for every well-formed table that holds the instruction. -/
def Obligations.EncodeThenDecodeReturnsTheInstruction : Prop :=
  (∀ (i : Instr) (rest : List Byte), decode (encode i ++ rest) = .ok (i, rest)) ∧
  ∀ (t : OpcodeTable) (i : Instr) (bytes rest : List Byte),
    t.wf = true → encodeWith t i = some bytes → decodeWith t (bytes ++ rest) = .ok (i, rest)

/-- R80 to R84, R86: each byte sequence that decodes is the encoding of the instruction it decodes to, followed by the
bytes the decoder left. -/
def Obligations.DecodeThenEncodeReturnsTheBytes : Prop :=
  ∀ (bytes : List Byte) (i : Instr) (rest : List Byte), decode bytes = .ok (i, rest) → encode i ++ rest = bytes

/-- The worked encodings of R92, one for each addressing mode. -/
def Obligations.WorkedEncodingsDecodeAsTheSpecWritesThem : Prop :=
  decode [0x0A#8] = .ok (.aslAcc, []) ∧
  decode [0x18#8] = .ok (.clc, []) ∧
  decode [0xA9#8, 0x05#8] = .ok (.ldaImm 0x05#8, []) ∧
  decode [0xA5#8, 0x10#8] = .ok (.ldaZp 0x10#8, []) ∧
  decode [0xB5#8, 0x10#8] = .ok (.ldaZpx 0x10#8, []) ∧
  decode [0xB6#8, 0x10#8] = .ok (.ldxZpy 0x10#8, []) ∧
  decode [0xAD#8, 0x34#8, 0x12#8] = .ok (.ldaAbs 0x1234#16, []) ∧
  decode [0xBD#8, 0x34#8, 0x12#8] = .ok (.ldaAbx 0x1234#16, []) ∧
  decode [0xB9#8, 0x34#8, 0x12#8] = .ok (.ldaAby 0x1234#16, []) ∧
  decode [0x6C#8, 0x34#8, 0x12#8] = .ok (.jmpInd 0x1234#16, []) ∧
  decode [0xA1#8, 0x10#8] = .ok (.ldaIzx 0x10#8, []) ∧
  decode [0xB1#8, 0x10#8] = .ok (.ldaIzy 0x10#8, []) ∧
  decode [0xD0#8, 0xFB#8] = .ok (.bne 0xFB#8, [])

/-- R88, R89: the default table is well-formed, has 151 entries, and has in each mode as many as R89 counts. -/
def Obligations.DefaultTableIsWellFormedAndCounted : Prop :=
  OpcodeTable.mos6502.wf = true ∧ OpcodeTable.mos6502.length = 151 ∧
  [Mode.acc, .imp, .imm, .zp, .zpx, .zpy, .abs, .abx, .aby, .ind, .izx, .izy, .rel].map
      (fun m => (OpcodeTable.mos6502.filter (fun e => e.mode == m)).length) =
    [4, 25, 11, 21, 16, 2, 23, 15, 9, 1, 8, 8, 8]

/-- R90, R221: a step whose opcode byte has no entry, whatever the table, faults with the byte and its address and leaves
the state as it was, so the next step faults again. Under the default table these are the 105 bytes R90 lists, and the
step has read that one byte; any other byte decodes. -/
def Obligations.UnassignedOpcodeFaultsWithStateUnchanged : Prop :=
  (∀ (p : Params) (s : State), p.table.lookup s.opcodeByte = none →
    runStep p s = .fault (.illegalOpcode s.opcodeByte s.pc s)) ∧
  unassignedBytes.length = 105 ∧
  ∀ s : State,
    (s.opcodeByte ∈ unassignedBytes →
      step s = .fault (.illegalOpcode s.opcodeByte s.pc s) ∧ stepTransactions s = [.read s.pc s.opcodeByte]) ∧
    (s.opcodeByte ∉ unassignedBytes → ∃ i rest, decode s.fetchBytes = .ok (i, rest))

/-- R95, R223: an entry whose mnemonic is not in IMPLEMENTED faults with the state unchanged, whatever the table; with the
default IMPLEMENTED that never happens. -/
def Obligations.NotImplementedEntryFaultsWithStateUnchanged : Prop :=
  (∀ (p : Params) (s : State) (e : Entry), p.table.lookup s.opcodeByte = some e → e.mnemonic ∉ p.implemented →
    runStep p s = .fault (.notImplemented s.opcodeByte e.mnemonic s.pc s)) ∧
  ∀ (s left : State) (op : Byte) (m : Mnemonic) (pc0 : Addr), step s ≠ .fault (.notImplemented op m pc0 left)

/-! ## The step -/

/-- R100, R101, R104 to R106: the bytes fetched are those at PC and after it, in 16-bit wrapping addresses; when they decode
to `i`, the step is `exec i`, counted by the entry of its opcode byte; advancing changes PC alone (and the model's count
of steps, log 6). Each arm of `exec` is `execForm`, the operation of its mnemonic through its operand. The last clause is
the model's choice for entries outside R89 (logs 9 and 15): under any parameters a step at an implemented entry answers
what `execForm` answers for the entry's mnemonic and the operand of its mode, which is a refusal, `noAddress`, where the
operation goes through an address and the mode has none. -/
def Obligations.StepRunsTheDecodedInstruction : Prop :=
  (∀ (s : State) (i : Instr) (rest : List Byte), decode s.fetchBytes = .ok (i, rest) →
    step s = exec i s ∧ i.wf .core = true ∧
    ∃ e, OpcodeTable.mos6502.lookup s.opcodeByte = some e ∧ e.mnemonic = i.mnemonic ∧ e.mode = i.mode ∧
      e.length = i.length ∧ runStep .core s = account (cycleCount e i.operand s) (exec i s)) ∧
  ∀ s : State,
    s.fetchBytes = [s.bus.read s.tick .opcode s.pc, s.bus.read s.tick .operandLow (s.pc + 1#16),
      s.bus.read s.tick .operandHigh (s.pc + 2#16)] ∧
    (∀ n, s.advance n = { s with pc := s.pc + BitVec.ofNat 16 n, tick := s.tick + 1 }) ∧
    (∀ i : Instr, exec i s = execForm i.mnemonic i.operand s) ∧
    ∀ (p : Params) (e : Entry), p.table.lookup s.opcodeByte = some e → e.mnemonic ∈ p.implemented →
      runStep p s =
        account (cycleCount e (s.fetchOperand e.mode) s) (execForm e.mnemonic (s.fetchOperand e.mode) s)

/-- R14, R104: after every instruction but the transfers of control, PC is the next sequential address, modulo 65536. -/
def Obligations.PcIsTheNextSequentialAddress : Prop :=
  ∀ (i : Instr) (s t : State),
    i.mnemonic ∉ [Mnemonic.jmp, .jsr, .rts, .rti, .brk, .bcc, .bcs, .beq, .bmi, .bne, .bpl, .bvc, .bvs] →
    exec i s = .next t → t.pc.toNat = (s.pc.toNat + i.length) % 65536

/-- R220, R230, part 1 of 93_implementation_defined.md ("Nothing in CORE is treated as stuck"): in the CORE configuration
every step completes, or faults with `IllegalOpcode`, or faults with `RomWriteViolation`; no step is ever refused. -/
def Obligations.EveryStepCompletesOrFaultsByName : Prop :=
  (∀ s : State, s.CoreConfiguration →
    (∃ t, step s = .next t) ∨
    (s.opcodeByte ∈ unassignedBytes ∧ step s = .fault (.illegalOpcode s.opcodeByte s.pc s)) ∨
    (∃ a v i, 0x8000 ≤ a.toNat ∧ step s = .fault (.romWriteViolation a v (s.advance (Instr.length i))))) ∧
  ∀ (s : State) (r : Refusal), step s ≠ .refused r

/-- R222: `RomWriteViolation` is raised by every store and read-modify-write at or above 0x8000, with the address and the
byte it was about to write, and by nothing else; only the instructions and modes the rule lists get there. It leaves every register, every flag and every byte but PC as before, and the step returns no cycle count; a host
write there raises it too. -/
def Obligations.RomWriteViolationChangesPcOnly : Prop :=
  (∀ (i : Instr) (s left : State) (a : Addr) (v : Byte), exec i s = .fault (.romWriteViolation a v left) →
    0x8000 ≤ a.toNat ∧
    ((i.mnemonic ∈ [Mnemonic.sta, .stx, .sty] ∧ i.mode = .abs) ∨
      (i.mnemonic = .sta ∧ i.mode ∈ [Mode.abx, .aby, .izx, .izy]) ∨
      (i.mnemonic ∈ modifiers ∧ i.mode ∈ [Mode.abs, .abx])) ∧
    left.pc.toNat = (s.pc.toNat + i.length) % 65536 ∧
    left.a = s.a ∧ left.x = s.x ∧ left.y = s.y ∧ left.sp = s.sp ∧ left.flags = s.flags ∧ left.bus = s.bus) ∧
  (∀ (i : Instr) (s : State) (m : MemOperand), i.operand = .mem m →
    i.mnemonic ∈ [Mnemonic.sta, .stx, .sty] ∨ i.mnemonic ∈ modifiers → 0x8000 ≤ (m.ea s).toNat →
    ∃ v left, exec i s = .fault (.romWriteViolation (m.ea s) v left) ∧
      .write (m.ea s) v ∈ instrTransactions i s) ∧
  (∀ (s left : State) (a : Addr) (v : Byte), step s = .fault (.romWriteViolation a v left) → stepCycles s = none) ∧
  ∀ (s : State) (a : Addr) (v : Byte), 0x8000 ≤ a.toNat →
    ∃ left, s.hostWrite a v = .fault (.romWriteViolation a v left) ∧ left = { s with tick := left.tick }

/-! ## Invariants and whole-machine rules -/

/-- The invariant holds at `State.reset` (whose cartridge and RAM are the model's choices, logs 2 and 3). -/
def Obligations.ResetMeetsTheInvariant : Prop := State.reset.Inv

/-- R241, R244, R53: the invariant holds after every power-on: any cartridge construction yields, any RAM_INIT, any extra
devices. -/
def Obligations.EveryPowerOnMeetsTheInvariant : Prop := ∀ s : State, PoweredOn s → s.Inv

/-- Every step, under the default parameters and under any (at entries outside R89 the model's choice, log 9), and every
host write, keeps the invariant: the arrays behind the bus stay canonical and of their sizes, and B stays 1. -/
def Obligations.EveryStepKeepsTheInvariant : Prop :=
  (∀ s t : State, s.Inv → step s = .next t → t.Inv) ∧
  (∀ (p : Params) (s t : State) (cycles : Nat), s.Inv → runStep p s = .ok cycles t → t.Inv) ∧
  ∀ (s t : State) (a : Addr) (v : Byte), s.Inv → s.hostWrite a v = .next t → t.Inv

/-- R26: B is 1 in every state reachable from reset (by steps, by host accesses between steps, by stepping on after a
refused write), so the status byte that PHP and BRK push has bits 5 and 4 set. -/
def Obligations.BreakFlagIsOneInEveryReachableState : Prop :=
  ∀ t : State, Reachable t → t.flags.b = true ∧ t.flags.pack ||| 0x30#8 = t.flags.pack

/-- R28, R42, R52, R58: no step changes the cartridge or the device list, whether it completes or faults. -/
def Obligations.NoStepChangesCartridgeOrDevices : Prop :=
  (∀ s t : State, step s = .next t → t.bus.cart = s.bus.cart ∧ t.bus.extra = s.bus.extra) ∧
  ∀ (s : State) (f : Fault), step s = .fault f → f.left.bus = s.bus

/-- The "written by" column of 10_state.md section 1 (R11 to R13, R16 to R22): a register or flag changes only in the
instructions it lists. B changes in none. -/
def Obligations.EachRegisterAndFlagChangesOnlyInItsWriters : Prop :=
  ∀ (i : Instr) (s t : State), exec i s = .next t →
    (t.a ≠ s.a → i.mnemonic ∈ [Mnemonic.lda, .txa, .tya, .pla, .adc, .sbc, .and, .ora, .eor] ∨
      (i.mnemonic ∈ [Mnemonic.asl, .lsr, .rol, .ror] ∧ i.operand = .acc)) ∧
    (t.x ≠ s.x → i.mnemonic ∈ [Mnemonic.ldx, .tax, .tsx, .inx, .dex]) ∧
    (t.y ≠ s.y → i.mnemonic ∈ [Mnemonic.ldy, .tay, .iny, .dey]) ∧
    (t.sp ≠ s.sp → i.mnemonic ∈ [Mnemonic.txs, .pha, .php, .jsr, .brk, .pla, .plp, .rts, .rti]) ∧
    (t.flags.c ≠ s.flags.c → i.mnemonic ∈
      [Mnemonic.adc, .sbc, .cmp, .cpx, .cpy, .asl, .lsr, .rol, .ror, .clc, .sec, .plp, .rti]) ∧
    (t.flags.z ≠ s.flags.z ∨ t.flags.n ≠ s.flags.n → i.mnemonic ∈
      [Mnemonic.lda, .ldx, .ldy, .tax, .tay, .txa, .tya, .tsx, .pla, .adc, .sbc, .and, .ora, .eor, .inc, .dec,
        .inx, .iny, .dex, .dey, .asl, .lsr, .rol, .ror, .cmp, .cpx, .cpy, .bit, .plp, .rti]) ∧
    (t.flags.i ≠ s.flags.i → i.mnemonic ∈ [Mnemonic.sei, .cli, .brk, .plp, .rti]) ∧
    (t.flags.d ≠ s.flags.d → i.mnemonic ∈ [Mnemonic.sed, .cld, .plp, .rti]) ∧
    t.flags.b = s.flags.b ∧
    (t.flags.v ≠ s.flags.v → i.mnemonic ∈ [Mnemonic.adc, .sbc, .bit, .clv, .plp, .rti])

/-- R18, R19: I masks nothing and D does not change arithmetic. Except in what PHP and BRK push, two states that differ in
I and D alone complete alike, and their results differ in I and D alone. -/
def Obligations.InterruptAndDecimalFlagsAreInert : Prop :=
  ∀ (i : Instr) (s t : State) (p q : Bool), i.mnemonic ≠ .php → i.mnemonic ≠ .brk → exec i s = .next t →
    ∃ t', exec i { s with flags := { s.flags with i := p, d := q } } = .next t' ∧
      t' = { t with flags := { t.flags with i := t'.flags.i, d := t'.flags.d } }

/-- Frame (R121, R126): an instruction that stores nothing leaves every byte of memory, the cartridge and the device list
as they were. -/
def Obligations.FormsThatStoreNothingLeaveMemoryAlone : Prop :=
  ∀ (i : Instr) (s t : State), exec i s = .next t → ¬ Stores i →
    (∀ a : Addr, t.bus.peek a = s.bus.peek a) ∧ t.bus = s.bus

/-- Frame (R121, R133 to R135, R159, R160, R170 to R173): a store or a read-modify-write of memory changes no byte outside
the cell it addresses, and no register; a store changes no flag. -/
def Obligations.MemoryWritersChangeOnlyTheAddressedCell : Prop :=
  ∀ (i : Instr) (s t : State) (m : MemOperand), i.operand = .mem m →
    i.mnemonic ∈ [Mnemonic.sta, .stx, .sty] ∨ i.mnemonic ∈ modifiers → exec i s = .next t →
    (∀ a : Addr, ¬ SameCell a (m.ea s) → t.bus.peek a = s.bus.peek a) ∧
    t.a = s.a ∧ t.x = s.x ∧ t.y = s.y ∧ t.sp = s.sp ∧ t.pc = s.pc + BitVec.ofNat 16 i.length ∧
    t.bus.cart = s.bus.cart ∧ t.bus.extra = s.bus.extra ∧
    (i.mnemonic ∉ modifiers → t.flags = s.flags)

/-- Frame (R127, R181, R200, R201, R225): a push changes no byte outside the stack bytes it writes, at `0x0100 + SP` and
below, and neither A, X, Y nor, BRK's I apart, a flag. -/
def Obligations.PushesChangeOnlyTheirStackBytes : Prop :=
  ∀ (i : Instr) (s t : State) (n : Nat),
    (i.mnemonic ∈ [Mnemonic.pha, .php] ∧ n = 1) ∨ (i.mnemonic = .jsr ∧ n = 2) ∨ (i.mnemonic = .brk ∧ n = 3) →
    exec i s = .next t →
    (∀ a : Addr, (∀ k < n, ¬ SameCell a (0x0100#16 + (s.sp - BitVec.ofNat 8 k).setWidth 16)) →
      t.bus.peek a = s.bus.peek a) ∧
    t.sp = s.sp - BitVec.ofNat 8 n ∧ t.a = s.a ∧ t.x = s.x ∧ t.y = s.y ∧
    t.flags = { s.flags with i := t.flags.i } ∧ (i.mnemonic ≠ .brk → t.flags = s.flags) ∧
    t.bus.cart = s.bus.cart ∧ t.bus.extra = s.bus.extra

/-! ## Reset, construction, the bus -/

/-- R241, R242: what reset leaves, for every cartridge, every RAM_INIT and every list of extra devices: PC is the
little-endian word at 0xFFFC, in PRG at 0x3FFC with one bank and at 0x7FFC with two; its two reads are the only bus
transactions; nothing behind the bus changes. -/
def Obligations.ResetLeavesTheStatedValues : Prop :=
  ∀ (cart : Cartridge) (ramInit : Memory) (extra : List ExtraDevice) (s : State), s = State.powerOn cart ramInit extra →
    s.a = 0x00#8 ∧ s.x = 0x00#8 ∧ s.y = 0x00#8 ∧ s.sp = 0xFF#8 ∧
    s.flags.c = false ∧ s.flags.z = false ∧ s.flags.i = true ∧ s.flags.d = false ∧ s.flags.b = true ∧
    s.flags.v = false ∧ s.flags.n = false ∧ s.flags.pack = 0x34#8 ∧
    s.bus = ⟨ramInit, cart, extra⟩ ∧
    (∃ l h, resetTransactions s.bus = [.read 0xFFFC#16 l, .read 0xFFFD#16 h] ∧ s.pc.toNat = l.toNat + 256 * h.toNat) ∧
    (cart.banks = .one → s.pc.toNat = (cart.prg.read 0x3FFC).toNat + 256 * (cart.prg.read 0x3FFD).toNat) ∧
    (cart.banks = .two → s.pc.toNat = (cart.prg.read 0x7FFC).toNat + 256 * (cart.prg.read 0x7FFD).toNat)

/-- R53: the construction checks, in their order; inputs that pass all four construct a cartridge. -/
def Obligations.ConstructionChecksInOrder : Prop :=
  ∀ (prgRom chrRom : List Byte) (number : Nat),
    (number ≠ 0 → construct prgRom chrRom number = .error (.unsupportedMapper number)) ∧
    (number = 0 → prgRom.length = 0 → construct prgRom chrRom number = .error .noPrgData) ∧
    (number = 0 → prgRom.length ≠ 0 → prgRom.length % 16384 ≠ 0 →
      construct prgRom chrRom number = .error (.sizeMismatch .prg prgRom.length)) ∧
    (number = 0 → prgRom.length ≠ 0 → prgRom.length % 16384 = 0 → chrRom.length % 8192 ≠ 0 →
      construct prgRom chrRom number = .error (.sizeMismatch .chr chrRom.length)) ∧
    (number = 0 → prgRom.length ≠ 0 → prgRom.length % 16384 = 0 → chrRom.length % 8192 = 0 →
      ∃ c, construct prgRom chrRom number = .ok c)

/-- R55, R57: a constructed cartridge is well-formed and shows the first bank twice, or the first two banks; its CHR is the
first CHR bank, or empty. -/
def Obligations.ConstructedCartridgeShowsItsFirstBanks : Prop :=
  ∀ (prgRom chrRom : List Byte) (number : Nat) (c : Cartridge), construct prgRom chrRom number = .ok c →
    c.wf = true ∧
    (prgRom.length = 16384 → ∀ a : Addr, 0x8000 ≤ a.toNat →
      c.readPrg a = prgRom.getD ((a.toNat - 0x8000) % 0x4000) 0x00#8) ∧
    (prgRom.length ≠ 16384 → ∀ a : Addr, 0x8000 ≤ a.toNat →
      c.readPrg a = prgRom.getD (a.toNat - 0x8000) 0x00#8) ∧
    (chrRom.length = 0 → c.chr = none) ∧
    (chrRom.length ≠ 0 → ∀ s : State, s.bus.cart = c → ∀ k < 8192, s.readChr k = .ok (chrRom.getD k 0x00#8))

/-- R59 and U7 (the refusals are log 13): `read_chr` answers the CHR bank's byte up to 0x1FFF and refuses above it and with
no bank. -/
def Obligations.ReadChrAnswersTheLoadedBank : Prop :=
  ∀ (s : State) (address : Nat),
    (∀ bank, s.bus.cart.chr = some bank → address ≤ 0x1FFF → s.readChr address = .ok (bank.read address)) ∧
    (0x1FFF < address → s.readChr address = .error (.chrUnavailable address)) ∧
    (s.bus.cart.chr = none → s.readChr address = .error (.chrUnavailable address))

/-- R43, R47, R49, R56: what RAM and MAPPER claim; the first device in order whose `chip_select` holds receives the access.
The order is RAM, MAPPER, then the extra devices (R42), so RAM and MAPPER win whatever the extra devices claim. -/
def Obligations.FirstDeviceInOrderReceivesTheAccess : Prop :=
  (∀ a : Addr, Device.ram.chipSelect a = decide (a.toNat < 0x2000) ∧
    Device.mapper.chipSelect a = decide (0x8000 ≤ a.toNat)) ∧
  (∀ (devices : List Device) (a : Addr) (d : Device),
    routeIn devices a = some d ↔
      ∃ before after, devices = before ++ d :: after ∧ d.chipSelect a = true ∧
        ∀ e ∈ before, e.chipSelect a = false) ∧
  (∀ (devices : List Device) (a : Addr), routeIn devices a = none ↔ ∀ d ∈ devices, d.chipSelect a = false) ∧
  ∀ (b : Bus) (a : Addr), b.route a = routeIn ([Device.ram, .mapper] ++ b.extra.map .extra) a ∧
    (a.toNat < 0x2000 → b.route a = some .ram) ∧ (0x8000 ≤ a.toNat → b.route a = some .mapper) ∧
    (0x2000 ≤ a.toNat → a.toNat < 0x8000 → b.claimed a = false → b.route a = none)

/-- R60: the address map: RAM and its mirrors below 0x2000; from there to 0x7FFF reads give 0x00 and writes are dropped
where no extra device claims the address; from 0x8000 on PRG, whose writes are refused. -/
def Obligations.AddressMapOfReadsAndWrites : Prop :=
  ∀ (b : Bus) (tick : Nat) (slot : Config.ReadSlot) (a : Addr) (v : Byte),
    (a.toNat < 0x0800 → b.read tick slot a = b.ram.read a.toNat ∧
      b.write tick a v = .ok { b with ram := b.ram.write a.toNat v }) ∧
    (a.toNat < 0x2000 → b.read tick slot a = b.ram.read (a.toNat % 2048) ∧
      b.write tick a v = .ok { b with ram := b.ram.write (a.toNat % 2048) v }) ∧
    (0x2000 ≤ a.toNat → a.toNat < 0x8000 → (b.extra = [] ∨ b.claimed a = false) →
      b.read tick slot a = 0x00#8 ∧ b.write tick a v = .ok b) ∧
    (0x8000 ≤ a.toNat → a.toNat < 0xC000 → b.read tick slot a = b.cart.prg.read (a.toNat - 0x8000)) ∧
    (0xC000 ≤ a.toNat → b.cart.banks = .two → b.read tick slot a = b.cart.prg.read (a.toNat - 0x8000)) ∧
    (0xC000 ≤ a.toNat → b.cart.banks = .one → b.read tick slot a = b.cart.prg.read (a.toNat - 0xC000)) ∧
    (0x8000 ≤ a.toNat → b.write tick a v = .error .readOnly)

/-- R50, R51: the four images of RAM: a write at `a` is read at every address of the same cell and changes no other read of
a stored byte. -/
def Obligations.RamIsMirroredFourTimes : Prop :=
  ∀ (b : Bus) (a : Addr), b.wf = true → a.toNat < 0x2000 →
    (∀ tick slot, b.read tick slot a = b.read tick slot (a &&& 0x07FF#16)) ∧
    ∀ (tick : Nat) (v : Byte), ∃ b', b.write tick a v = .ok b' ∧ b'.wf = true ∧
      (∀ (w : Addr) (tick' : Nat) (slot : Config.ReadSlot), w.toNat < 0x2000 → w &&& 0x07FF#16 = a &&& 0x07FF#16 →
        b'.read tick' slot w = v) ∧
      ∀ (w : Addr) (tick' : Nat) (slot : Config.ReadSlot),
        ¬ (w.toNat < 0x2000 ∧ w &&& 0x07FF#16 = a &&& 0x07FF#16) → b'.read tick' slot w = b.read tick' slot w

/-- R57: a read from 0x8000 on is the mapper's; with one bank, 0x8000 and 0xC000 show the same bytes; with two, each shows
its own. -/
def Obligations.PrgBanksAreMirroredOrSeparate : Prop :=
  (∀ (b : Bus) (tick : Nat) (slot : Config.ReadSlot) (a : Addr), 0x8000 ≤ a.toNat →
    b.read tick slot a = b.cart.readPrg a) ∧
  ∀ (c : Cartridge) (k : Nat),
    (c.banks = .one → k < 0x4000 →
      c.readPrg (BitVec.ofNat 16 (0x8000 + k)) = c.prg.read k ∧
      c.readPrg (BitVec.ofNat 16 (0xC000 + k)) = c.prg.read k) ∧
    (c.banks = .two → k < 0x8000 → c.readPrg (BitVec.ofNat 16 (0x8000 + k)) = c.prg.read k)

/-- R74: a host read is `bus.read` and a host write is `bus.write`; neither touches a register. -/
def Obligations.HostAccessesTouchNoRegister : Prop :=
  ∀ (s : State) (a : Addr) (v : Byte),
    (s.hostRead a).1 = s.bus.read s.tick .host a ∧ (s.hostRead a).2 = { s with tick := s.tick + 1 } ∧
    WritesByte { s with tick := s.tick + 1 } a v (fun t => t) (s.hostWrite a v)

/-- R62, R63: a 16-bit read is little-endian; its second address wraps in 16 bits, a zero-page pointer's inside the zero
page. -/
def Obligations.WordReadsAreLittleEndianAndWrap : Prop :=
  ∀ (s : State) (lowSlot highSlot : Config.ReadSlot) (a : Addr) (zp : Byte),
    (∃ a', a'.toNat = (a.toNat + 1) % 65536 ∧
      (s.readWord lowSlot highSlot a).toNat = (s.read lowSlot a).toNat + 256 * (s.read highSlot a').toNat) ∧
    (s.readWordZp zp).toNat =
      (s.bus.ram.read zp.toNat).toNat + 256 * (s.bus.ram.read ((zp.toNat + 1) % 256)).toNat

/-! ## Addressing, operands, status byte, stack -/

/-- R63, R109 to R112, R114 to R120: the effective address of every mode that forms one, and the base address of ABX, ABY
and IZY, as numbers. -/
def Obligations.EffectiveAddressOfEveryMode : Prop :=
  ∀ (s : State) (b v off : Byte) (w : Addr),
    (MemOperand.zp b).ea s = BitVec.ofNat 16 b.toNat ∧
    ((MemOperand.zpx b).ea s).toNat = (b.toNat + s.x.toNat) % 256 ∧
    ((MemOperand.zpy b).ea s).toNat = (b.toNat + s.y.toNat) % 256 ∧
    (MemOperand.abs w).ea s = w ∧
    (∀ m ∈ [MemOperand.zp b, .zpx b, .zpy b, .abs w, .izx b], m.base s = none) ∧
    (((MemOperand.abx w).ea s).toNat = (w.toNat + s.x.toNat) % 65536 ∧ (MemOperand.abx w).base s = some w) ∧
    (((MemOperand.aby w).ea s).toNat = (w.toNat + s.y.toNat) % 65536 ∧ (MemOperand.aby w).base s = some w) ∧
    ((MemOperand.izx b).ea s).toNat =
      (s.bus.ram.read ((b.toNat + s.x.toNat) % 256)).toNat +
        256 * (s.bus.ram.read ((b.toNat + s.x.toNat + 1) % 256)).toNat ∧
    (∃ base, (MemOperand.izy b).base s = some base ∧
      base.toNat = (s.bus.ram.read b.toNat).toNat + 256 * (s.bus.ram.read ((b.toNat + 1) % 256)).toNat ∧
      ((MemOperand.izy b).ea s).toNat = (base.toNat + s.y.toNat) % 65536) ∧
    (∃ ea, (Operand.imm v).ea s = some ea ∧ ea.toNat = (s.pc.toNat + 1) % 65536) ∧
    (∃ ea, (Operand.rel off).ea s = some ea ∧ (ea.toNat : Int) = (s.pc.toNat + 2 + off.toInt) % 65536) ∧
    (∃ ea a', (Operand.ind w).ea s = some ea ∧ a'.toNat = (w.toNat + 1) % 65536 ∧
      ea.toNat = (s.read .pointerLow w).toNat + 256 * (s.read .pointerHigh a').toNat)

/-- R112, R121: `LoadOperand` is A, or the byte at the effective address; the operand byte an IMM instruction carries is
the byte fetched at `pc0 + 1` (log 7). -/
def Obligations.LoadOperandReadsThroughTheAddress : Prop :=
  (∀ (s : State) (v : Byte) (m : MemOperand),
    Operand.acc.load s = some s.a ∧ (Operand.imm v).load s = some v ∧
    (Operand.mem m).load s = some (s.bus.read s.tick .operand (m.ea s))) ∧
  ∀ (s : State) (i : Instr) (rest : List Byte) (v : Byte), decode s.fetchBytes = .ok (i, rest) →
    i.operand = .imm v → v = s.bus.read s.tick .operandLow (s.pc + 1#16)

/-- R24, R25: the bits of the status byte; a pull writes six flags and leaves B; packing what was pulled gives the byte
with bits 5 and 4 set when B is 1. -/
def Obligations.StatusByteIsPackedAndUnpacked : Prop :=
  Flags.reset.pack = 0x34#8 ∧
  ∀ (f : Flags) (p : Byte),
    f.pack = BitVec.ofBoolListBE [f.n, f.v, true, f.b, f.d, f.i, f.z, f.c] ∧
    f.unpack p = ⟨p.getLsbD 0, p.getLsbD 1, p.getLsbD 2, p.getLsbD 3, f.b, p.getLsbD 6, p.getLsbD 7⟩ ∧
    (f.b = true → (f.unpack p).pack = p ||| 0x30#8)

/-- R75, R127, R128: a push is the bus write at `0x0100 + SP`, which cannot fail, then SP down one; a pull is SP up one,
then the byte there; each wraps modulo 256, and a pull after a push gives the byte back. -/
def Obligations.PushAndPullUseTheStackPage : Prop :=
  ∀ (s : State) (v : Byte),
    (∃ t, s.write (BitVec.ofNat 16 (0x100 + s.sp.toNat)) v = .next t ∧
      s.push v = { t with sp := s.sp - 1#8 } ∧
      t = { s with bus := { s.bus with ram := s.bus.ram.write (0x100 + s.sp.toNat) v } }) ∧
    (s.pull.2 = { s with sp := s.sp + 1#8 } ∧
      s.pull.1 = s.bus.peek (BitVec.ofNat 16 (0x100 + (s.sp.toNat + 1) % 256))) ∧
    (s.bus.wf = true → (s.push v).pull.1 = v ∧ (s.push v).pull.2.sp = s.sp)

/-! ## Instructions -/

/-- R130 to R132: LDA, LDX, LDY. -/
def Obligations.LoadsWriteTheRegisterAndZN : Prop :=
  rowsOf .lda = [(.izx, 0xA1#8, 6, .none), (.zp, 0xA5#8, 3, .none), (.imm, 0xA9#8, 2, .none),
    (.abs, 0xAD#8, 4, .none), (.izy, 0xB1#8, 5, .pageCross), (.zpx, 0xB5#8, 4, .none),
    (.aby, 0xB9#8, 4, .pageCross), (.abx, 0xBD#8, 4, .pageCross)] ∧
  rowsOf .ldx = [(.imm, 0xA2#8, 2, .none), (.zp, 0xA6#8, 3, .none), (.abs, 0xAE#8, 4, .none),
    (.zpy, 0xB6#8, 4, .none), (.aby, 0xBE#8, 4, .pageCross)] ∧
  rowsOf .ldy = [(.imm, 0xA0#8, 2, .none), (.zp, 0xA4#8, 3, .none), (.abs, 0xAC#8, 4, .none),
    (.zpx, 0xB4#8, 4, .none), (.abx, 0xBC#8, 4, .pageCross)] ∧
  ∀ (i : Instr) (s : State),
    (i.mnemonic = .lda → ∃ m, i.operand.load s = some m ∧ exec i s = .next
      { s.advance i.length with a := m, flags := { s.flags with z := m == 0#8, n := m.getLsbD 7 } }) ∧
    (i.mnemonic = .ldx → ∃ m, i.operand.load s = some m ∧ exec i s = .next
      { s.advance i.length with x := m, flags := { s.flags with z := m == 0#8, n := m.getLsbD 7 } }) ∧
    (i.mnemonic = .ldy → ∃ m, i.operand.load s = some m ∧ exec i s = .next
      { s.advance i.length with y := m, flags := { s.flags with z := m == 0#8, n := m.getLsbD 7 } })

/-- R133 to R135: STA, STX, STY. -/
def Obligations.StoresWriteTheRegisterThroughTheAddress : Prop :=
  rowsOf .sta = [(.izx, 0x81#8, 6, .none), (.zp, 0x85#8, 3, .none), (.abs, 0x8D#8, 4, .none),
    (.izy, 0x91#8, 6, .none), (.zpx, 0x95#8, 4, .none), (.aby, 0x99#8, 5, .none), (.abx, 0x9D#8, 5, .none)] ∧
  rowsOf .stx = [(.zp, 0x86#8, 3, .none), (.abs, 0x8E#8, 4, .none), (.zpy, 0x96#8, 4, .none)] ∧
  rowsOf .sty = [(.zp, 0x84#8, 3, .none), (.abs, 0x8C#8, 4, .none), (.zpx, 0x94#8, 4, .none)] ∧
  ∀ (i : Instr) (s : State),
    (i.mnemonic = .sta → StoresByte i s s.a) ∧ (i.mnemonic = .stx → StoresByte i s s.x) ∧
    (i.mnemonic = .sty → StoresByte i s s.y)

/-- R136 to R141: the register transfers; TXS alone changes no flag. -/
def Obligations.TransfersCopyOneRegister : Prop :=
  rowsOf .tax = [(.imp, 0xAA#8, 2, .none)] ∧
  rowsOf .tay = [(.imp, 0xA8#8, 2, .none)] ∧
  rowsOf .txa = [(.imp, 0x8A#8, 2, .none)] ∧
  rowsOf .tya = [(.imp, 0x98#8, 2, .none)] ∧
  rowsOf .tsx = [(.imp, 0xBA#8, 2, .none)] ∧
  rowsOf .txs = [(.imp, 0x9A#8, 2, .none)] ∧
  ∀ s : State,
    exec .tax s = .next
      { s.advance 1 with x := s.a, flags := { s.flags with z := s.a == 0#8, n := s.a.getLsbD 7 } } ∧
    exec .tay s = .next
      { s.advance 1 with y := s.a, flags := { s.flags with z := s.a == 0#8, n := s.a.getLsbD 7 } } ∧
    exec .txa s = .next
      { s.advance 1 with a := s.x, flags := { s.flags with z := s.x == 0#8, n := s.x.getLsbD 7 } } ∧
    exec .tya s = .next
      { s.advance 1 with a := s.y, flags := { s.flags with z := s.y == 0#8, n := s.y.getLsbD 7 } } ∧
    exec .tsx s = .next
      { s.advance 1 with x := s.sp, flags := { s.flags with z := s.sp == 0#8, n := s.sp.getLsbD 7 } } ∧
    exec .txs s = .next { s.advance 1 with sp := s.x }

/-- R150: ADC. C is the unsigned outcome; V is 1 exactly when the signed sum lies outside -128 to 127, which is the rule's
sign-consistency test on the old A. D has no effect. -/
def Obligations.AdcAddsWithCarry : Prop :=
  rowsOf .adc = [(.izx, 0x61#8, 6, .none), (.zp, 0x65#8, 3, .none), (.imm, 0x69#8, 2, .none),
    (.abs, 0x6D#8, 4, .none), (.izy, 0x71#8, 5, .pageCross), (.zpx, 0x75#8, 4, .none),
    (.aby, 0x79#8, 4, .pageCross), (.abx, 0x7D#8, 4, .pageCross)] ∧
  ∀ (i : Instr) (s : State), i.mnemonic = .adc → ∃ m t r, i.operand.load s = some m ∧
    t = s.a.toNat + m.toNat + s.flags.c.toNat ∧ r = BitVec.ofNat 8 t ∧
    exec i s = .next { s.advance i.length with
      a := r
      flags := { s.flags with
        c := decide (255 < t)
        z := r == 0#8
        v := decide (s.a.toInt + m.toInt + s.flags.c.toNat < -128 ∨ 127 < s.a.toInt + m.toInt + s.flags.c.toNat)
        n := r.getLsbD 7 } } ∧
    (decide (s.a.toInt + m.toInt + s.flags.c.toNat < -128 ∨ 127 < s.a.toInt + m.toInt + s.flags.c.toNat) =
      (((s.a ^^^ r) &&& (m ^^^ r) &&& 0x80#8) != 0#8))

/-- R151: SBC. The result is `A - m - (1 - C)`; C is 1 exactly when no borrow occurred; V is 1 exactly when the signed
difference lies outside -128 to 127. D has no effect. -/
def Obligations.SbcSubtractsWithBorrow : Prop :=
  rowsOf .sbc = [(.izx, 0xE1#8, 6, .none), (.zp, 0xE5#8, 3, .none), (.imm, 0xE9#8, 2, .none),
    (.abs, 0xED#8, 4, .none), (.izy, 0xF1#8, 5, .pageCross), (.zpx, 0xF5#8, 4, .none),
    (.aby, 0xF9#8, 4, .pageCross), (.abx, 0xFD#8, 4, .pageCross)] ∧
  ∀ (i : Instr) (s : State), i.mnemonic = .sbc → ∃ m borrow r, i.operand.load s = some m ∧
    borrow = (if s.flags.c then 0 else 1) ∧ r = s.a - m - BitVec.ofNat 8 borrow ∧
    exec i s = .next { s.advance i.length with
      a := r
      flags := { s.flags with
        c := decide (m.toNat + borrow ≤ s.a.toNat)
        z := r == 0#8
        v := decide (s.a.toInt - m.toInt - borrow < -128 ∨ 127 < s.a.toInt - m.toInt - borrow)
        n := r.getLsbD 7 } }

/-- R152 to R154: AND, ORA, EOR. -/
def Obligations.LogicCombinesAWithTheOperand : Prop :=
  rowsOf .and = [(.izx, 0x21#8, 6, .none), (.zp, 0x25#8, 3, .none), (.imm, 0x29#8, 2, .none),
    (.abs, 0x2D#8, 4, .none), (.izy, 0x31#8, 5, .pageCross), (.zpx, 0x35#8, 4, .none),
    (.aby, 0x39#8, 4, .pageCross), (.abx, 0x3D#8, 4, .pageCross)] ∧
  rowsOf .ora = [(.izx, 0x01#8, 6, .none), (.zp, 0x05#8, 3, .none), (.imm, 0x09#8, 2, .none),
    (.abs, 0x0D#8, 4, .none), (.izy, 0x11#8, 5, .pageCross), (.zpx, 0x15#8, 4, .none),
    (.aby, 0x19#8, 4, .pageCross), (.abx, 0x1D#8, 4, .pageCross)] ∧
  rowsOf .eor = [(.izx, 0x41#8, 6, .none), (.zp, 0x45#8, 3, .none), (.imm, 0x49#8, 2, .none),
    (.abs, 0x4D#8, 4, .none), (.izy, 0x51#8, 5, .pageCross), (.zpx, 0x55#8, 4, .none),
    (.aby, 0x59#8, 4, .pageCross), (.abx, 0x5D#8, 4, .pageCross)] ∧
  ∀ (i : Instr) (s : State), i.mnemonic ∈ [Mnemonic.and, .ora, .eor] → ∃ m r, i.operand.load s = some m ∧
    (i.mnemonic = .and → r = s.a &&& m) ∧ (i.mnemonic = .ora → r = s.a ||| m) ∧
    (i.mnemonic = .eor → r = s.a ^^^ m) ∧
    exec i s = .next
      { s.advance i.length with a := r, flags := { s.flags with z := r == 0#8, n := r.getLsbD 7 } }

/-- R155 to R157: CMP, CPX, CPY: C, Z, N from the unsigned comparison and the wrapped difference; nothing else changes. -/
def Obligations.ComparesSetCZN : Prop :=
  rowsOf .cmp = [(.izx, 0xC1#8, 6, .none), (.zp, 0xC5#8, 3, .none), (.imm, 0xC9#8, 2, .none),
    (.abs, 0xCD#8, 4, .none), (.izy, 0xD1#8, 5, .pageCross), (.zpx, 0xD5#8, 4, .none),
    (.aby, 0xD9#8, 4, .pageCross), (.abx, 0xDD#8, 4, .pageCross)] ∧
  rowsOf .cpx = [(.imm, 0xE0#8, 2, .none), (.zp, 0xE4#8, 3, .none), (.abs, 0xEC#8, 4, .none)] ∧
  rowsOf .cpy = [(.imm, 0xC0#8, 2, .none), (.zp, 0xC4#8, 3, .none), (.abs, 0xCC#8, 4, .none)] ∧
  ∀ (i : Instr) (s : State), i.mnemonic ∈ [Mnemonic.cmp, .cpx, .cpy] → ∃ m r, i.operand.load s = some m ∧
    (i.mnemonic = .cmp → r = s.a) ∧ (i.mnemonic = .cpx → r = s.x) ∧ (i.mnemonic = .cpy → r = s.y) ∧
    exec i s = .next { s.advance i.length with
      flags := { s.flags with
        c := decide (m.toNat ≤ r.toNat), z := decide (r = m), n := decide (128 ≤ (r.toNat + 256 - m.toNat) % 256) } }

/-- R158: BIT: Z from `A & m`, N and V from the operand's bits 7 and 6. -/
def Obligations.BitTestsTheOperand : Prop :=
  rowsOf .bit = [(.zp, 0x24#8, 3, .none), (.abs, 0x2C#8, 4, .none)] ∧
  ∀ (i : Instr) (s : State), i.mnemonic = .bit → ∃ m, i.operand.load s = some m ∧
    exec i s = .next { s.advance i.length with
      flags := { s.flags with z := s.a &&& m == 0#8, n := m.getLsbD 7, v := m.getLsbD 6 } }

/-- R159, R160: INC and DEC of memory: one read, one write, then Z and N; a refused write leaves the flags alone. -/
def Obligations.IncAndDecModifyMemory : Prop :=
  rowsOf .inc = [(.zp, 0xE6#8, 5, .none), (.abs, 0xEE#8, 6, .none), (.zpx, 0xF6#8, 6, .none),
    (.abx, 0xFE#8, 7, .none)] ∧
  rowsOf .dec = [(.zp, 0xC6#8, 5, .none), (.abs, 0xCE#8, 6, .none), (.zpx, 0xD6#8, 6, .none),
    (.abx, 0xDE#8, 7, .none)] ∧
  ∀ (i : Instr) (s : State),
    (i.mnemonic = .inc → ModifiesOperand i s (fun m => m + 1#8)
      (fun m => { s.flags with z := m + 1#8 == 0#8, n := (m + 1#8).getLsbD 7 })) ∧
    (i.mnemonic = .dec → ModifiesOperand i s (fun m => m - 1#8)
      (fun m => { s.flags with z := m - 1#8 == 0#8, n := (m - 1#8).getLsbD 7 }))

/-- R161 to R164: INX, INY, DEX, DEY. -/
def Obligations.IndexRegistersCountUpAndDown : Prop :=
  rowsOf .inx = [(.imp, 0xE8#8, 2, .none)] ∧
  rowsOf .iny = [(.imp, 0xC8#8, 2, .none)] ∧
  rowsOf .dex = [(.imp, 0xCA#8, 2, .none)] ∧
  rowsOf .dey = [(.imp, 0x88#8, 2, .none)] ∧
  ∀ s : State,
    exec .inx s = .next { s.advance 1 with
      x := s.x + 1#8, flags := { s.flags with z := s.x + 1#8 == 0#8, n := (s.x + 1#8).getLsbD 7 } } ∧
    exec .iny s = .next { s.advance 1 with
      y := s.y + 1#8, flags := { s.flags with z := s.y + 1#8 == 0#8, n := (s.y + 1#8).getLsbD 7 } } ∧
    exec .dex s = .next { s.advance 1 with
      x := s.x - 1#8, flags := { s.flags with z := s.x - 1#8 == 0#8, n := (s.x - 1#8).getLsbD 7 } } ∧
    exec .dey s = .next { s.advance 1 with
      y := s.y - 1#8, flags := { s.flags with z := s.y - 1#8 == 0#8, n := (s.y - 1#8).getLsbD 7 } }

/-- R170 to R173: ASL, LSR, ROL, ROR, on A and on memory, their results as numbers. -/
def Obligations.ShiftsMoveOneBitThroughCarry : Prop :=
  rowsOf .asl = [(.zp, 0x06#8, 5, .none), (.acc, 0x0A#8, 2, .none), (.abs, 0x0E#8, 6, .none),
    (.zpx, 0x16#8, 6, .none), (.abx, 0x1E#8, 7, .none)] ∧
  rowsOf .lsr = [(.zp, 0x46#8, 5, .none), (.acc, 0x4A#8, 2, .none), (.abs, 0x4E#8, 6, .none),
    (.zpx, 0x56#8, 6, .none), (.abx, 0x5E#8, 7, .none)] ∧
  rowsOf .rol = [(.zp, 0x26#8, 5, .none), (.acc, 0x2A#8, 2, .none), (.abs, 0x2E#8, 6, .none),
    (.zpx, 0x36#8, 6, .none), (.abx, 0x3E#8, 7, .none)] ∧
  rowsOf .ror = [(.zp, 0x66#8, 5, .none), (.acc, 0x6A#8, 2, .none), (.abs, 0x6E#8, 6, .none),
    (.zpx, 0x76#8, 6, .none), (.abx, 0x7E#8, 7, .none)] ∧
  ∀ (i : Instr) (s : State) (r : Byte → Byte) (c : Byte → Bool),
    (i.mnemonic = .asl ∧ r = (fun m => BitVec.ofNat 8 (2 * m.toNat)) ∧ c = fun m => m.getLsbD 7) ∨
    (i.mnemonic = .lsr ∧ r = (fun m => BitVec.ofNat 8 (m.toNat / 2)) ∧ c = fun m => m.getLsbD 0) ∨
    (i.mnemonic = .rol ∧ r = (fun m => BitVec.ofNat 8 (2 * m.toNat + s.flags.c.toNat)) ∧ c = fun m => m.getLsbD 7) ∨
    (i.mnemonic = .ror ∧ r = (fun m => BitVec.ofNat 8 (m.toNat / 2 + 128 * s.flags.c.toNat)) ∧
      c = fun m => m.getLsbD 0) →
    ModifiesOperand i s r (fun m => { s.flags with c := c m, z := r m == 0#8, n := (r m).getLsbD 7 })

/-- R180, R114: JMP sets PC to the operand word, or to the word stored there, and changes nothing else. -/
def Obligations.JmpSetsPc : Prop :=
  rowsOf .jmp = [(.abs, 0x4C#8, 3, .none), (.ind, 0x6C#8, 5, .none)] ∧
  ∀ (s : State) (w : Addr),
    exec (.jmpAbs w) s = .next { s.advance 3 with pc := w } ∧
    exec (.jmpInd w) s = .next
      { s.advance 3 with pc := mkWord (s.read .pointerHigh (w + 1#16)) (s.read .pointerLow w) }

/-- R181, R182: JSR pushes the address of its own last byte, high byte first, and jumps; RTS pulls a word, low byte first,
and resumes one past it. -/
def Obligations.JsrPushesAndRtsPulls : Prop :=
  rowsOf .jsr = [(.abs, 0x20#8, 6, .none)] ∧ rowsOf .rts = [(.imp, 0x60#8, 6, .none)] ∧
  ∀ (s : State) (w : Addr),
    exec (.jsr w) s = .next { s.advance 3 with
      pc := w
      sp := s.sp - 2#8
      bus := { s.bus with
        ram := ((s.bus.ram.write (0x100 + s.sp.toNat) (hi (s.pc + 2#16))).write (0x100 + (s.sp - 1#8).toNat)
          (lo (s.pc + 2#16))) } } ∧
    exec .rts s = .next { s.advance 1 with
      pc := mkWord (s.bus.ram.read (0x100 + (s.sp + 2#8).toNat)) (s.bus.ram.read (0x100 + (s.sp + 1#8).toNat)) + 1#16
      sp := s.sp + 2#8 }

/-- R181, R182: an RTS with the stack as JSR left it resumes at the instruction after the JSR, with SP as it was. -/
def Obligations.RtsReturnsToTheInstructionAfterJsr : Prop :=
  ∀ (s : State) (w : Addr), s.bus.wf = true → ∃ t, exec (.jsr w) s = .next t ∧
    ∀ u : State, u.sp = t.sp → u.bus.ram = t.bus.ram →
      ∃ v, exec .rts u = .next v ∧ v.pc = s.pc + 3#16 ∧ v.sp = s.sp

/-- R183 to R191, R117: each branch tests its one flag; taken, PC is the address after it plus the signed offset, modulo
65536; otherwise PC is the address after it; nothing else changes. -/
def Obligations.BranchesTestOneFlag : Prop :=
  [Mnemonic.bcc, .bcs, .beq, .bmi, .bne, .bpl, .bvc, .bvs].map rowsOf =
    [[(.rel, 0x90#8, 2, .branch)], [(.rel, 0xB0#8, 2, .branch)], [(.rel, 0xF0#8, 2, .branch)],
      [(.rel, 0x30#8, 2, .branch)], [(.rel, 0xD0#8, 2, .branch)], [(.rel, 0x10#8, 2, .branch)],
      [(.rel, 0x50#8, 2, .branch)], [(.rel, 0x70#8, 2, .branch)]] ∧
  ∀ (i : Instr) (s : State) (off : Byte) (taken : Bool),
    (i = .bcc off ∧ taken = !s.flags.c) ∨ (i = .bcs off ∧ taken = s.flags.c) ∨
    (i = .beq off ∧ taken = s.flags.z) ∨ (i = .bmi off ∧ taken = s.flags.n) ∨
    (i = .bne off ∧ taken = !s.flags.z) ∨ (i = .bpl off ∧ taken = !s.flags.n) ∨
    (i = .bvc off ∧ taken = !s.flags.v) ∨ (i = .bvs off ∧ taken = s.flags.v) →
    ∃ target : Addr, (target.toNat : Int) = (s.pc.toNat + 2 + off.toInt) % 65536 ∧
      exec i s = .next (if taken then { s.advance 2 with pc := target } else s.advance 2)

/-- R200 to R203: PHA, PHP, PLA, PLP. -/
def Obligations.StackInstructionsPushAndPull : Prop :=
  rowsOf .pha = [(.imp, 0x48#8, 3, .none)] ∧
  rowsOf .php = [(.imp, 0x08#8, 3, .none)] ∧
  rowsOf .pla = [(.imp, 0x68#8, 4, .none)] ∧
  rowsOf .plp = [(.imp, 0x28#8, 4, .none)] ∧
  ∀ (s : State) (p : Byte), p = s.bus.ram.read (0x100 + (s.sp + 1#8).toNat) →
    exec .pha s = .next { s.advance 1 with
      sp := s.sp - 1#8, bus := { s.bus with ram := s.bus.ram.write (0x100 + s.sp.toNat) s.a } } ∧
    exec .php s = .next { s.advance 1 with
      sp := s.sp - 1#8, bus := { s.bus with ram := s.bus.ram.write (0x100 + s.sp.toNat) s.flags.pack } } ∧
    exec .pla s = .next { s.advance 1 with
      sp := s.sp + 1#8, a := p, flags := { s.flags with z := p == 0#8, n := p.getLsbD 7 } } ∧
    exec .plp s = .next { s.advance 1 with
      sp := s.sp + 1#8
      flags := ⟨p.getLsbD 0, p.getLsbD 1, p.getLsbD 2, p.getLsbD 3, s.flags.b, p.getLsbD 6, p.getLsbD 7⟩ }

/-- R204 to R210: each flag instruction writes its one flag. -/
def Obligations.FlagInstructionsWriteOneFlag : Prop :=
  [Mnemonic.clc, .sec, .cli, .sei, .cld, .sed, .clv].map rowsOf =
    [[(.imp, 0x18#8, 2, .none)], [(.imp, 0x38#8, 2, .none)], [(.imp, 0x58#8, 2, .none)],
      [(.imp, 0x78#8, 2, .none)], [(.imp, 0xD8#8, 2, .none)], [(.imp, 0xF8#8, 2, .none)],
      [(.imp, 0xB8#8, 2, .none)]] ∧
  ∀ s : State,
    exec .clc s = .next { s.advance 1 with flags := { s.flags with c := false } } ∧
    exec .sec s = .next { s.advance 1 with flags := { s.flags with c := true } } ∧
    exec .cli s = .next { s.advance 1 with flags := { s.flags with i := false } } ∧
    exec .sei s = .next { s.advance 1 with flags := { s.flags with i := true } } ∧
    exec .cld s = .next { s.advance 1 with flags := { s.flags with d := false } } ∧
    exec .sed s = .next { s.advance 1 with flags := { s.flags with d := true } } ∧
    exec .clv s = .next { s.advance 1 with flags := { s.flags with v := false } }

/-- R211: NOP changes PC alone. -/
def Obligations.NopChangesPcOnly : Prop :=
  rowsOf .nop = [(.imp, 0xEA#8, 2, .none)] ∧
  ∀ s : State, exec .nop s = .next (s.advance 1) ∧
    s.advance 1 = { s with pc := s.pc + 1#16, tick := s.tick + 1 }

/-- R212, R213, R225, R226: BRK pushes `pc0 + 2` and the status byte, sets I and loads PC from 0xFFFE, in that order of
transactions, and never reads the byte after the opcode; RTI pulls the status byte, then PC with no increment. Nothing
else changes. -/
def Obligations.BrkTakesTheTrapAndRtiReturns : Prop :=
  rowsOf .brk = [(.imp, 0x00#8, 7, .none)] ∧ rowsOf .rti = [(.imp, 0x40#8, 6, .none)] ∧
  ∀ (s : State) (p : Byte), p = s.bus.ram.read (0x100 + (s.sp + 1#8).toNat) →
    exec .brk s = .next { s.advance 1 with
      pc := mkWord (s.bus.peek 0xFFFF#16) (s.bus.peek 0xFFFE#16)
      sp := s.sp - 3#8
      flags := { s.flags with i := true }
      bus := { s.bus with
        ram := (((s.bus.ram.write (0x100 + s.sp.toNat) (hi (s.pc + 2#16))).write (0x100 + (s.sp - 1#8).toNat)
          (lo (s.pc + 2#16))).write (0x100 + (s.sp - 2#8).toNat) s.flags.pack) } } ∧
    instrTransactions .brk s =
      [.read s.pc s.opcodeByte,
        .write (BitVec.ofNat 16 (0x100 + s.sp.toNat)) (hi (s.pc + 2#16)),
        .write (BitVec.ofNat 16 (0x100 + (s.sp - 1#8).toNat)) (lo (s.pc + 2#16)),
        .write (BitVec.ofNat 16 (0x100 + (s.sp - 2#8).toNat)) s.flags.pack,
        .read 0xFFFE#16 (s.bus.peek 0xFFFE#16), .read 0xFFFF#16 (s.bus.peek 0xFFFF#16)] ∧
    exec .rti s = .next { s.advance 1 with
      pc := mkWord (s.bus.ram.read (0x100 + (s.sp + 3#8).toNat)) (s.bus.ram.read (0x100 + (s.sp + 2#8).toNat))
      sp := s.sp + 3#8
      flags := ⟨p.getLsbD 0, p.getLsbD 1, p.getLsbD 2, p.getLsbD 3, s.flags.b, p.getLsbD 6, p.getLsbD 7⟩ }

/-- R213, R226: after a BRK at `pc0`, an RTI with the stack as BRK left it resumes at `pc0 + 2` with the flags BRK saved and
SP as it was. -/
def Obligations.RtiResumesTwoPastBrkWithTheSavedFlags : Prop :=
  ∀ s : State, s.bus.wf = true → ∃ t, exec .brk s = .next t ∧ t.flags.i = true ∧
    ∀ u : State, u.sp = t.sp → u.bus.ram = t.bus.ram → u.flags.b = t.flags.b →
      ∃ v, exec .rti u = .next v ∧ v.pc = s.pc + 2#16 ∧ v.sp = s.sp ∧ v.flags = s.flags

/-! ## Cycle count, transactions, fetch coherence -/

/-- R106, R123, R124: the count a completed step returns: the entry's base count, one more when a `page_cross` access leaves
the base address's page, one more for a taken branch and another when its target leaves the page of the next instruction.
A step that faults returns none. -/
def Obligations.CycleCountIsBasePlusPenalty : Prop :=
  (∀ (s t : State) (i : Instr) (rest : List Byte) (e : Entry), decode s.fetchBytes = .ok (i, rest) →
    OpcodeTable.mos6502.lookup s.opcodeByte = some e → step s = .next t →
    (e.modifier = .none → stepCycles s = some e.baseCycles) ∧
    (e.modifier = .pageCross → ∃ m w, i.operand = .mem m ∧ m.base s = some w ∧
      stepCycles s = some (e.baseCycles + if w.toNat / 256 = (m.ea s).toNat / 256 then 0 else 1)) ∧
    (e.modifier = .branch → ∃ off, i.operand = .rel off ∧
      (branchTaken i.mnemonic s.flags = false → stepCycles s = some e.baseCycles ∧ t.pc = s.pc + 2#16) ∧
      (branchTaken i.mnemonic s.flags = true → t.pc = relTarget s off ∧
        stepCycles s =
          some (e.baseCycles + 1 + if (s.pc + 2#16).toNat / 256 = t.pc.toNat / 256 then 0 else 1)))) ∧
  ∀ (s : State) (f : Fault), step s = .fault f → stepCycles s = none

/-- R107: a step makes at most six bus transactions, and only BRK makes six. -/
def Obligations.StepMakesAtMostSixTransactions : Prop :=
  ∀ s : State, 1 ≤ (stepTransactions s).length ∧ (stepTransactions s).length ≤ 6 ∧
    ((stepTransactions s).length = 6 → s.opcodeByte = 0x00#8)

/-- R126: the opcode read comes first, and every read precedes every write, BRK's vector reads apart. -/
def Obligations.ReadsPrecedeWritesExceptInBrk : Prop :=
  ∀ (i : Instr) (s : State), (∃ ts, instrTransactions i s = .read s.pc s.opcodeByte :: ts) ∧
    (i ≠ .brk → ∃ reads writes : List (Addr × Byte),
      instrTransactions i s =
        reads.map (fun x => Transaction.read x.1 x.2) ++ writes.map (fun x => Transaction.write x.1 x.2))

/-- R67, R126: what a completed step leaves behind the bus is exactly what the writes of its transactions leave, under the
default parameters and under any (at entries outside R89 the model's choice, logs 9 and 15). -/
def Obligations.TransactionsExplainTheMemoryAfterAStep : Prop :=
  (∀ s t : State, step s = .next t → t.bus = replayWrites s.bus (stepTransactions s)) ∧
  ∀ (p : Params) (s t : State) (cycles : Nat), runStep p s = .ok cycles t →
    t.bus = replayWrites s.bus (runTransactions p s)

/-- R70: a byte any instruction writes to RAM, be it a store, a read-modify-write or a push, is read back under every
mirror of its cell when the instruction is done, and is the opcode byte of the very next step when PC names that cell. -/
def Obligations.StoreIsSeenByTheNextFetch : Prop :=
  (∀ (i : Instr) (s : State), Stores i → ∃ a v, .write a v ∈ instrTransactions i s) ∧
  ∀ (i : Instr) (s t : State) (a : Addr) (v : Byte), s.bus.wf = true → exec i s = .next t →
    .write a v ∈ instrTransactions i s → a.toNat < 0x2000 →
    (∀ b : Addr, SameCell b a → t.bus.peek b = v) ∧ (SameCell t.pc a → t.opcodeByte = v)

/-! ## The opcode table as a parameter -/

/-- R88, U9: parameters are made of a table exactly when every entry has the length of its mode, `branch` only with REL,
`page_cross` only with ABX, ABY, IZY, and no byte stands twice; any other table is refused, and no machine has one. -/
def Obligations.OnlyWellFormedTablesAreAccepted : Prop :=
  (∀ (t : OpcodeTable) (implemented : List Mnemonic),
    ((∃ p, Params.make t implemented = .ok p) ↔
      (∀ e ∈ t, e.length = e.mode.length ∧ (e.modifier = .branch → e.mode = .rel) ∧
        (e.modifier = .pageCross → e.mode ∈ [Mode.abx, .aby, .izy])) ∧
      (t.map Entry.opcode).Nodup) ∧
    (∀ p, Params.make t implemented = .ok p → p.table = t ∧ p.implemented = implemented) ∧
    ((∀ p, Params.make t implemented ≠ .ok p) → Params.make t implemented = .error .tableNotWellFormed)) ∧
  ∀ p : Params, Params.make p.table p.implemented = .ok p
end

