-- ==== Sys2Proof/Laws/Bits.lean ====
section
/-! SUPPORT. Bit fields and byte order: taking a word apart and putting it together. -/

namespace Sys2Proof.Machine

theorem mkWord_toNat (h l : Byte) : (mkWord h l).toNat = h.toNat * 256 + l.toNat := by
  have hl := l.isLt
  change (h ++ l : BitVec (8 + 8)).toNat = _
  rw [BitVec.toNat_append, ← Nat.shiftLeft_add_eq_or_of_lt hl, Nat.shiftLeft_eq]

theorem lo_toNat (w : Addr) : (lo w).toNat = w.toNat % 256 := by simp [lo]

theorem hi_toNat (w : Addr) : (hi w).toNat = w.toNat / 256 := by
  have := w.isLt
  simp [hi, Nat.shiftRight_eq_div_pow]
  omega

@[simp] theorem lo_mkWord (h l : Byte) : lo (mkWord h l) = l := by
  apply BitVec.eq_of_toNat_eq
  rw [lo_toNat, mkWord_toNat]
  omega

@[simp] theorem hi_mkWord (h l : Byte) : hi (mkWord h l) = h := by
  apply BitVec.eq_of_toNat_eq
  rw [hi_toNat, mkWord_toNat]
  omega

@[simp] theorem mkWord_hi_lo (w : Addr) : mkWord (hi w) (lo w) = w := by
  apply BitVec.eq_of_toNat_eq
  rw [mkWord_toNat, hi_toNat, lo_toNat]
  omega

@[simp] theorem zext16_toNat (b : Byte) : (zext16 b).toNat = b.toNat := by
  have := b.isLt
  simp [zext16]
  omega

end Sys2Proof.Machine
end

