-- ==== Sys2Proof/Laws/Memory.lean ====
section
/-! SUPPORT. The laws of a byte array: read after write, the canonical form is kept, equal reads are equal arrays, and
the array of a byte sequence reads as the sequence. -/

namespace Sys2Proof.Machine

theorem Memory.wfFrom_cons {lowest size j : Nat} {u : Byte} {rest : Memory} :
    Memory.wfFrom lowest size ((j, u) :: rest) = true ↔
      lowest ≤ j ∧ j < size ∧ u ≠ Memory.fill ∧ Memory.wfFrom (j + 1) size rest = true := by
  simp [Memory.wfFrom, and_assoc]

theorem Memory.wfFrom_mono {lowest lowest' size : Nat} (h : lowest ≤ lowest') :
    {m : Memory} → Memory.wfFrom lowest' size m = true → Memory.wfFrom lowest size m = true
  | [], _ => rfl
  | (_, _) :: _, hm => by
    rw [Memory.wfFrom_cons] at hm ⊢
    exact ⟨by omega, hm.2⟩

/-- Below the first index of a canonical array everything is unlisted. -/
theorem Memory.read_below {lowest size k : Nat} (hk : k < lowest) :
    {m : Memory} → Memory.wfFrom lowest size m = true → Memory.read m k = Memory.fill
  | [], _ => rfl
  | (j, u) :: rest, hm => by
    rw [Memory.wfFrom_cons] at hm
    rw [Memory.read, if_neg (by omega)]
    exact Memory.read_below (by omega) hm.2.2.2

theorem Memory.read_put_other {j k : Nat} (v : Byte) (m : Memory) (h : j ≠ k) :
    Memory.read (Memory.put j v m) k = Memory.read m k := by
  unfold Memory.put
  split <;> simp [Memory.read, h]

theorem Memory.read_put_same {lowest size k : Nat} (v : Byte) {m : Memory} (h : k < lowest)
    (hm : Memory.wfFrom lowest size m = true) : Memory.read (Memory.put k v m) k = v := by
  unfold Memory.put
  split
  · next e => rw [Memory.read_below h hm, e]
  · simp [Memory.read]

theorem Memory.put_wf {lowest size k : Nat} (v : Byte) {m : Memory} (h : lowest ≤ k) (hk : k < size)
    (hm : Memory.wfFrom (k + 1) size m = true) : Memory.wfFrom lowest size (Memory.put k v m) = true := by
  unfold Memory.put
  split
  · exact Memory.wfFrom_mono (by omega) hm
  · next e => exact Memory.wfFrom_cons.2 ⟨h, hk, e, hm⟩

/-- A write keeps the canonical form. -/
theorem Memory.wfFrom_write {size k : Nat} (v : Byte) (hk : k < size) :
    {lowest : Nat} → lowest ≤ k → {m : Memory} → Memory.wfFrom lowest size m = true →
      Memory.wfFrom lowest size (Memory.write m k v) = true
  | _, hl, [], _ => Memory.put_wf v hl hk rfl
  | lowest, hl, (j, u) :: rest, hm => by
    have h := Memory.wfFrom_cons.1 hm
    unfold Memory.write
    split
    · next hlt =>
      exact Memory.put_wf v hl hk (Memory.wfFrom_cons.2 ⟨by omega, h.2⟩)
    · split
      · next e => exact Memory.put_wf v hl hk (e ▸ h.2.2.2)
      · exact Memory.wfFrom_cons.2 ⟨h.1, h.2.1, h.2.2.1, Memory.wfFrom_write v hk (by omega) h.2.2.2⟩

theorem Memory.write_wf {size k : Nat} {m : Memory} (v : Byte) (hk : k < size) (hm : m.wf size = true) :
    (m.write k v).wf size = true :=
  Memory.wfFrom_write v hk (Nat.zero_le k) hm

/-- A write leaves every other index alone. -/
theorem Memory.read_write_other {j k : Nat} (v : Byte) (h : j ≠ k) :
    (m : Memory) → Memory.read (Memory.write m j v) k = Memory.read m k
  | [] => Memory.read_put_other v [] h
  | (i, u) :: rest => by
    unfold Memory.write
    split
    · exact Memory.read_put_other v _ h
    · split
      · next e => rw [Memory.read_put_other v _ h, Memory.read, if_neg (by omega)]
      · simp only [Memory.read]
        split
        · rfl
        · exact Memory.read_write_other v h rest

theorem Memory.read_wfFrom_write {size k : Nat} (v : Byte) (hk : k < size) :
    {lowest : Nat} → lowest ≤ k → {m : Memory} → Memory.wfFrom lowest size m = true →
      Memory.read (Memory.write m k v) k = v
  | _, _, [], _ => Memory.read_put_same (lowest := k + 1) (size := size) v (by omega) rfl
  | lowest, hl, (j, u) :: rest, hm => by
    have h := Memory.wfFrom_cons.1 hm
    unfold Memory.write
    split
    · next hlt =>
      exact Memory.read_put_same (lowest := k + 1) v (by omega) (Memory.wfFrom_cons.2 ⟨by omega, h.2⟩)
    · split
      · next e => exact Memory.read_put_same (lowest := j + 1) v (by omega) h.2.2.2
      · rw [Memory.read, if_neg (by omega)]
        exact Memory.read_wfFrom_write v hk (by omega) h.2.2.2

/-- A read after a write to the same index gives the value written. -/
theorem Memory.read_write_same {size k : Nat} {m : Memory} (v : Byte) (hk : k < size) (hm : m.wf size = true) :
    (m.write k v).read k = v :=
  Memory.read_wfFrom_write v hk (Nat.zero_le k) hm

/-- Two canonical arrays that read alike are the same data. -/
theorem Memory.ext_wfFrom {size : Nat} : {lowest : Nat} → {m m' : Memory} →
    Memory.wfFrom lowest size m = true → Memory.wfFrom lowest size m' = true →
      (∀ k, Memory.read m k = Memory.read m' k) → m = m'
  | _, [], [], _, _, _ => rfl
  | _, [], (j, u) :: rest, _, h', e => by
    have := e j
    simp [Memory.read] at this
    exact absurd this.symm (Memory.wfFrom_cons.1 h').2.2.1
  | _, (j, u) :: rest, [], h, _, e => by
    have := e j
    simp [Memory.read] at this
    exact absurd this (Memory.wfFrom_cons.1 h).2.2.1
  | _, (j, u) :: rest, (j', u') :: rest', h, h', e => by
    have h := Memory.wfFrom_cons.1 h
    have h' := Memory.wfFrom_cons.1 h'
    have hj : j = j' := by
      rcases Nat.lt_trichotomy j j' with hlt | rfl | hlt
      · have := e j
        rw [Memory.read, if_pos rfl, Memory.read, if_neg (by omega), Memory.read_below (by omega) h'.2.2.2] at this
        exact absurd this h.2.2.1
      · rfl
      · have := e j'
        rw [Memory.read, if_neg (by omega), Memory.read_below (by omega) h.2.2.2, Memory.read, if_pos rfl] at this
        exact absurd this.symm h'.2.2.1
    subst hj
    have hu : u = u' := by simpa [Memory.read] using e j
    subst hu
    have : rest = rest' := Memory.ext_wfFrom h.2.2.2 h'.2.2.2 fun k => by
      rcases Nat.lt_or_ge j k with hk | hk
      · have := e k
        rwa [Memory.read, if_neg (by omega), Memory.read, if_neg (by omega)] at this
      · rw [Memory.read_below (by omega) h.2.2.2, Memory.read_below (by omega) h'.2.2.2]
    rw [this]

theorem Memory.ofBytesFrom_wf {size : Nat} : (k : Nat) → (bytes : List Byte) → k + bytes.length ≤ size →
    Memory.wfFrom k size (Memory.ofBytesFrom k bytes) = true
  | _, [], _ => rfl
  | k, v :: vs, h => by
    simp only [List.length_cons] at h
    exact Memory.put_wf v (Nat.le_refl k) (by omega) (Memory.ofBytesFrom_wf (k + 1) vs (by omega))

theorem Memory.read_ofBytesFrom {i : Nat} : (k : Nat) → (bytes : List Byte) →
    Memory.read (Memory.ofBytesFrom k bytes) (k + i) = bytes.getD i Memory.fill
  | _, [] => rfl
  | k, v :: vs => by
    match i with
    | 0 =>
      simpa [Memory.ofBytesFrom] using Memory.read_put_same v (Nat.lt_succ_self k)
        (Memory.ofBytesFrom_wf (size := k + 1 + vs.length) (k + 1) vs (Nat.le_refl _))
    | i + 1 =>
      rw [Memory.ofBytesFrom, Memory.read_put_other v _ (by omega), List.getD_cons_succ,
        ← Memory.read_ofBytesFrom (k + 1) vs, Nat.add_right_comm, Nat.add_assoc k i 1]

theorem Memory.ofBytes_wf {size : Nat} {bytes : List Byte} (h : bytes.length ≤ size) :
    (Memory.ofBytes bytes).wf size = true :=
  Memory.ofBytesFrom_wf 0 bytes (by omega)

theorem Memory.read_ofBytes (bytes : List Byte) (i : Nat) :
    (Memory.ofBytes bytes).read i = bytes.getD i Memory.fill := by
  simpa [Memory.ofBytes] using Memory.read_ofBytesFrom (i := i) 0 bytes

end Sys2Proof.Machine
end

