-- ==== Sys2Proof/Laws/State.lean ====
section
/-! SUPPORT. One lemma per field per update of State, so that no later proof unfolds a record update. -/

namespace Sys2Proof.Machine

@[simp] theorem State.setA_a (s : State) (v : Byte) : (s.setA v).a = v := rfl
@[simp] theorem State.setA_x (s : State) (v : Byte) : (s.setA v).x = s.x := rfl
@[simp] theorem State.setA_y (s : State) (v : Byte) : (s.setA v).y = s.y := rfl
@[simp] theorem State.setA_sp (s : State) (v : Byte) : (s.setA v).sp = s.sp := rfl
@[simp] theorem State.setA_pc (s : State) (v : Byte) : (s.setA v).pc = s.pc := rfl
@[simp] theorem State.setA_flags (s : State) (v : Byte) : (s.setA v).flags = s.flags := rfl
@[simp] theorem State.setA_bus (s : State) (v : Byte) : (s.setA v).bus = s.bus := rfl
@[simp] theorem State.setA_tick (s : State) (v : Byte) : (s.setA v).tick = s.tick := rfl

@[simp] theorem State.setX_a (s : State) (v : Byte) : (s.setX v).a = s.a := rfl
@[simp] theorem State.setX_x (s : State) (v : Byte) : (s.setX v).x = v := rfl
@[simp] theorem State.setX_y (s : State) (v : Byte) : (s.setX v).y = s.y := rfl
@[simp] theorem State.setX_sp (s : State) (v : Byte) : (s.setX v).sp = s.sp := rfl
@[simp] theorem State.setX_pc (s : State) (v : Byte) : (s.setX v).pc = s.pc := rfl
@[simp] theorem State.setX_flags (s : State) (v : Byte) : (s.setX v).flags = s.flags := rfl
@[simp] theorem State.setX_bus (s : State) (v : Byte) : (s.setX v).bus = s.bus := rfl
@[simp] theorem State.setX_tick (s : State) (v : Byte) : (s.setX v).tick = s.tick := rfl

@[simp] theorem State.setY_a (s : State) (v : Byte) : (s.setY v).a = s.a := rfl
@[simp] theorem State.setY_x (s : State) (v : Byte) : (s.setY v).x = s.x := rfl
@[simp] theorem State.setY_y (s : State) (v : Byte) : (s.setY v).y = v := rfl
@[simp] theorem State.setY_sp (s : State) (v : Byte) : (s.setY v).sp = s.sp := rfl
@[simp] theorem State.setY_pc (s : State) (v : Byte) : (s.setY v).pc = s.pc := rfl
@[simp] theorem State.setY_flags (s : State) (v : Byte) : (s.setY v).flags = s.flags := rfl
@[simp] theorem State.setY_bus (s : State) (v : Byte) : (s.setY v).bus = s.bus := rfl
@[simp] theorem State.setY_tick (s : State) (v : Byte) : (s.setY v).tick = s.tick := rfl

@[simp] theorem State.setSp_a (s : State) (v : Byte) : (s.setSp v).a = s.a := rfl
@[simp] theorem State.setSp_x (s : State) (v : Byte) : (s.setSp v).x = s.x := rfl
@[simp] theorem State.setSp_y (s : State) (v : Byte) : (s.setSp v).y = s.y := rfl
@[simp] theorem State.setSp_sp (s : State) (v : Byte) : (s.setSp v).sp = v := rfl
@[simp] theorem State.setSp_pc (s : State) (v : Byte) : (s.setSp v).pc = s.pc := rfl
@[simp] theorem State.setSp_flags (s : State) (v : Byte) : (s.setSp v).flags = s.flags := rfl
@[simp] theorem State.setSp_bus (s : State) (v : Byte) : (s.setSp v).bus = s.bus := rfl
@[simp] theorem State.setSp_tick (s : State) (v : Byte) : (s.setSp v).tick = s.tick := rfl

@[simp] theorem State.setPc_a (s : State) (w : Addr) : (s.setPc w).a = s.a := rfl
@[simp] theorem State.setPc_x (s : State) (w : Addr) : (s.setPc w).x = s.x := rfl
@[simp] theorem State.setPc_y (s : State) (w : Addr) : (s.setPc w).y = s.y := rfl
@[simp] theorem State.setPc_sp (s : State) (w : Addr) : (s.setPc w).sp = s.sp := rfl
@[simp] theorem State.setPc_pc (s : State) (w : Addr) : (s.setPc w).pc = w := rfl
@[simp] theorem State.setPc_flags (s : State) (w : Addr) : (s.setPc w).flags = s.flags := rfl
@[simp] theorem State.setPc_bus (s : State) (w : Addr) : (s.setPc w).bus = s.bus := rfl
@[simp] theorem State.setPc_tick (s : State) (w : Addr) : (s.setPc w).tick = s.tick := rfl

@[simp] theorem State.setFlags_a (s : State) (f : Flags) : (s.setFlags f).a = s.a := rfl
@[simp] theorem State.setFlags_x (s : State) (f : Flags) : (s.setFlags f).x = s.x := rfl
@[simp] theorem State.setFlags_y (s : State) (f : Flags) : (s.setFlags f).y = s.y := rfl
@[simp] theorem State.setFlags_sp (s : State) (f : Flags) : (s.setFlags f).sp = s.sp := rfl
@[simp] theorem State.setFlags_pc (s : State) (f : Flags) : (s.setFlags f).pc = s.pc := rfl
@[simp] theorem State.setFlags_flags (s : State) (f : Flags) : (s.setFlags f).flags = f := rfl
@[simp] theorem State.setFlags_bus (s : State) (f : Flags) : (s.setFlags f).bus = s.bus := rfl
@[simp] theorem State.setFlags_tick (s : State) (f : Flags) : (s.setFlags f).tick = s.tick := rfl

@[simp] theorem State.setBus_a (s : State) (b : Bus) : (s.setBus b).a = s.a := rfl
@[simp] theorem State.setBus_x (s : State) (b : Bus) : (s.setBus b).x = s.x := rfl
@[simp] theorem State.setBus_y (s : State) (b : Bus) : (s.setBus b).y = s.y := rfl
@[simp] theorem State.setBus_sp (s : State) (b : Bus) : (s.setBus b).sp = s.sp := rfl
@[simp] theorem State.setBus_pc (s : State) (b : Bus) : (s.setBus b).pc = s.pc := rfl
@[simp] theorem State.setBus_flags (s : State) (b : Bus) : (s.setBus b).flags = s.flags := rfl
@[simp] theorem State.setBus_bus (s : State) (b : Bus) : (s.setBus b).bus = b := rfl
@[simp] theorem State.setBus_tick (s : State) (b : Bus) : (s.setBus b).tick = s.tick := rfl

@[simp] theorem State.advance_a (s : State) (n : Nat) : (s.advance n).a = s.a := rfl
@[simp] theorem State.advance_x (s : State) (n : Nat) : (s.advance n).x = s.x := rfl
@[simp] theorem State.advance_y (s : State) (n : Nat) : (s.advance n).y = s.y := rfl
@[simp] theorem State.advance_sp (s : State) (n : Nat) : (s.advance n).sp = s.sp := rfl
@[simp] theorem State.advance_pc (s : State) (n : Nat) : (s.advance n).pc = s.pc + BitVec.ofNat 16 n := rfl
@[simp] theorem State.advance_flags (s : State) (n : Nat) : (s.advance n).flags = s.flags := rfl
@[simp] theorem State.advance_bus (s : State) (n : Nat) : (s.advance n).bus = s.bus := rfl
@[simp] theorem State.advance_tick (s : State) (n : Nat) : (s.advance n).tick = s.tick + 1 := rfl

@[simp] theorem State.setZN_a (s : State) (v : Byte) : (s.setZN v).a = s.a := rfl
@[simp] theorem State.setZN_x (s : State) (v : Byte) : (s.setZN v).x = s.x := rfl
@[simp] theorem State.setZN_y (s : State) (v : Byte) : (s.setZN v).y = s.y := rfl
@[simp] theorem State.setZN_sp (s : State) (v : Byte) : (s.setZN v).sp = s.sp := rfl
@[simp] theorem State.setZN_pc (s : State) (v : Byte) : (s.setZN v).pc = s.pc := rfl
@[simp] theorem State.setZN_flags (s : State) (v : Byte) : (s.setZN v).flags = s.flags.setZN v := rfl
@[simp] theorem State.setZN_bus (s : State) (v : Byte) : (s.setZN v).bus = s.bus := rfl
@[simp] theorem State.setZN_tick (s : State) (v : Byte) : (s.setZN v).tick = s.tick := rfl

@[simp] theorem State.push_a (s : State) (v : Byte) : (s.push v).a = s.a := rfl
@[simp] theorem State.push_x (s : State) (v : Byte) : (s.push v).x = s.x := rfl
@[simp] theorem State.push_y (s : State) (v : Byte) : (s.push v).y = s.y := rfl
@[simp] theorem State.push_sp (s : State) (v : Byte) : (s.push v).sp = s.sp - 1#8 := rfl
@[simp] theorem State.push_pc (s : State) (v : Byte) : (s.push v).pc = s.pc := rfl
@[simp] theorem State.push_flags (s : State) (v : Byte) : (s.push v).flags = s.flags := rfl
@[simp] theorem State.push_bus (s : State) (v : Byte) : (s.push v).bus = s.bus.writeRam (stackAddress s.sp) v := rfl
@[simp] theorem State.push_tick (s : State) (v : Byte) : (s.push v).tick = s.tick := rfl

@[simp] theorem State.pull_a (s : State) : s.pull.2.a = s.a := rfl
@[simp] theorem State.pull_x (s : State) : s.pull.2.x = s.x := rfl
@[simp] theorem State.pull_y (s : State) : s.pull.2.y = s.y := rfl
@[simp] theorem State.pull_sp (s : State) : s.pull.2.sp = s.sp + 1#8 := rfl
@[simp] theorem State.pull_pc (s : State) : s.pull.2.pc = s.pc := rfl
@[simp] theorem State.pull_flags (s : State) : s.pull.2.flags = s.flags := rfl
@[simp] theorem State.pull_bus (s : State) : s.pull.2.bus = s.bus := rfl
@[simp] theorem State.pull_tick (s : State) : s.pull.2.tick = s.tick := rfl

@[simp] theorem State.pullWord_a (s : State) : s.pullWord.2.a = s.a := rfl
@[simp] theorem State.pullWord_x (s : State) : s.pullWord.2.x = s.x := rfl
@[simp] theorem State.pullWord_y (s : State) : s.pullWord.2.y = s.y := rfl
@[simp] theorem State.pullWord_sp (s : State) : s.pullWord.2.sp = s.sp + 1#8 + 1#8 := rfl
@[simp] theorem State.pullWord_pc (s : State) : s.pullWord.2.pc = s.pc := rfl
@[simp] theorem State.pullWord_flags (s : State) : s.pullWord.2.flags = s.flags := rfl
@[simp] theorem State.pullWord_bus (s : State) : s.pullWord.2.bus = s.bus := rfl
@[simp] theorem State.pullWord_tick (s : State) : s.pullWord.2.tick = s.tick := rfl

@[simp] theorem Bus.writeRam_cart (b : Bus) (a : Addr) (v : Byte) : (b.writeRam a v).cart = b.cart := rfl
@[simp] theorem Bus.writeRam_extra (b : Bus) (a : Addr) (v : Byte) : (b.writeRam a v).extra = b.extra := rfl
@[simp] theorem Bus.writeRam_ram (b : Bus) (a : Addr) (v : Byte) : (b.writeRam a v).ram = b.ram.write (ramCell a) v := rfl

end Sys2Proof.Machine
end

