-- ==== Sys2Proof/Laws/Bus.lean ====
section
/-! SUPPORT. The bus: where an address is routed, what a read and a write can do, and that the stack is RAM. -/

namespace Sys2Proof.Machine

theorem ramCell_eq (a : Addr) : ramCell a = a.toNat % 2048 := by
  simp only [ramCell, Config.ramMask, BitVec.toNat_and, BitVec.toNat_ofNat]
  exact Nat.and_two_pow_sub_one_eq_mod a.toNat 11

theorem ramCell_lt (a : Addr) : ramCell a < Config.ramSize := by
  rw [ramCell_eq]; exact Nat.mod_lt _ (by decide)

theorem Bus.route_ram (b : Bus) {a : Addr} (h : a.toNat < 0x2000) : b.route a = some .ram := by
  simp [Bus.route, routeIn, Bus.devices, Device.chipSelect, Config.ramEnd, h]

theorem Bus.route_mapper (b : Bus) {a : Addr} (h : 0x8000 ≤ a.toNat) : b.route a = some .mapper := by
  have h' : ¬ a.toNat < 8192 := by omega
  simp [Bus.route, routeIn, Bus.devices, Device.chipSelect, Config.ramEnd, Config.prgStart, h, h']

theorem Bus.route_middle (b : Bus) {a : Addr} (h : 0x2000 ≤ a.toNat) (h' : a.toNat < 0x8000) :
    b.route a = (b.extra.map Device.extra).find? (fun d => d.chipSelect a) := by
  have h1 : ¬ a.toNat < 8192 := by omega
  have h2 : ¬ 32768 ≤ a.toNat := by omega
  simp [Bus.route, routeIn, Bus.devices, Device.chipSelect, Config.ramEnd, Config.prgStart, h1, h2]

theorem Bus.route_open (b : Bus) {a : Addr} (h : 0x2000 ≤ a.toNat) (h' : a.toNat < 0x8000) (hc : b.claimed a = false) :
    b.route a = none := by
  rw [b.route_middle h h', List.find?_eq_none]
  rintro d hd
  obtain ⟨e, he, rfl⟩ := List.mem_map.1 hd
  exact List.any_eq_false.1 hc e he

theorem Bus.route_claimed (b : Bus) {a : Addr} (h : 0x2000 ≤ a.toNat) (h' : a.toNat < 0x8000) (hc : b.claimed a = true) :
    ∃ d, b.route a = some (.extra d) := by
  obtain ⟨e, he, hs⟩ := List.any_eq_true.1 hc
  rw [b.route_middle h h']
  cases hf : (b.extra.map Device.extra).find? (fun d => d.chipSelect a) with
  | none => exact absurd hs (List.find?_eq_none.1 hf _ (List.mem_map_of_mem he))
  | some d =>
    obtain ⟨d', -, rfl⟩ := List.mem_map.1 (List.mem_of_find?_eq_some hf)
    exact ⟨d', rfl⟩

/-- Routing depends on the extra devices and the address alone. -/
theorem Bus.route_congr {b b' : Bus} (h : b'.extra = b.extra) (a : Addr) : b'.route a = b.route a := by
  simp [Bus.route, Bus.devices, h]

@[simp] theorem Bus.route_writeRam (b : Bus) (a w : Addr) (v : Byte) : (b.writeRam a v).route w = b.route w :=
  Bus.route_congr rfl w

theorem Bus.read_ram (b : Bus) (tick : Nat) (slot : Config.ReadSlot) {a : Addr} (h : a.toNat < 0x2000) :
    b.read tick slot a = b.ram.read (a.toNat % 2048) := by
  rw [Bus.read, b.route_ram h, ramCell_eq]

theorem Bus.read_prg (b : Bus) (tick : Nat) (slot : Config.ReadSlot) {a : Addr} (h : 0x8000 ≤ a.toNat) :
    b.read tick slot a = b.cart.readPrg a := by
  rw [Bus.read, b.route_mapper h]

theorem Bus.read_open (b : Bus) (tick : Nat) (slot : Config.ReadSlot) {a : Addr} (h : 0x2000 ≤ a.toNat)
    (h' : a.toNat < 0x8000) (hc : b.claimed a = false) : b.read tick slot a = 0#8 := by
  rw [Bus.read, b.route_open h h' hc]; rfl

theorem Bus.peek_ram (b : Bus) {a : Addr} (h : a.toNat < 0x2000) : b.peek a = b.ram.read (a.toNat % 2048) := by
  rw [Bus.peek, b.route_ram h, ramCell_eq]

theorem Bus.peek_prg (b : Bus) {a : Addr} (h : 0x8000 ≤ a.toNat) : b.peek a = b.cart.readPrg a := by
  rw [Bus.peek, b.route_mapper h]

theorem Bus.peek_middle (b : Bus) {a : Addr} (h : 0x2000 ≤ a.toNat) (h' : a.toNat < 0x8000) : b.peek a = 0#8 := by
  rw [Bus.peek]
  cases hc : b.claimed a
  · rw [b.route_open h h' hc]; rfl
  · obtain ⟨d, hd⟩ := b.route_claimed h h' hc
    rw [hd]; rfl

/-- Wherever no extra device answers, a read returns the stored byte, whichever read of whichever step it is. -/
theorem Bus.read_eq_peek (b : Bus) (tick : Nat) (slot : Config.ReadSlot) {a : Addr} (hc : b.claimed a = false) :
    b.read tick slot a = b.peek a := by
  unfold Bus.read Bus.peek
  rcases Nat.lt_or_ge a.toNat 0x2000 with h | h
  · rw [b.route_ram h]
  · rcases Nat.lt_or_ge a.toNat 0x8000 with h' | h'
    · rw [b.route_open h h' hc]
    · rw [b.route_mapper h']

/-- The byte stored at an address depends on the RAM and the cartridge alone. -/
theorem Bus.peek_congr {b b' : Bus} (hr : b'.ram = b.ram) (hc : b'.cart = b.cart) (a : Addr) : b'.peek a = b.peek a := by
  rcases Nat.lt_or_ge a.toNat 0x2000 with h | h
  · rw [b.peek_ram h, b'.peek_ram h, hr]
  · rcases Nat.lt_or_ge a.toNat 0x8000 with h' | h'
    · rw [b.peek_middle h h', b'.peek_middle h h']
    · rw [b.peek_prg h', b'.peek_prg h', hc]

theorem Bus.peek_writeRam_same (b : Bus) {a w : Addr} (v : Byte) (hw : b.wf = true) (hl : w.toNat < 0x2000)
    (he : w.toNat % 2048 = a.toNat % 2048) : (b.writeRam a v).peek w = v := by
  rw [Bus.peek_ram _ hl, Bus.writeRam_ram, ramCell_eq, he]
  simp only [Bus.wf, Bool.and_eq_true] at hw
  exact Memory.read_write_same v (Nat.mod_lt _ (by decide)) hw.1

theorem Bus.peek_writeRam_other (b : Bus) {a w : Addr} (v : Byte)
    (h : w.toNat < 0x2000 → w.toNat % 2048 ≠ a.toNat % 2048) : (b.writeRam a v).peek w = b.peek w := by
  rcases Nat.lt_or_ge w.toNat 0x2000 with hw | hw
  · rw [Bus.peek_ram _ hw, b.peek_ram hw, Bus.writeRam_ram, ramCell_eq]
    exact Memory.read_write_other v (fun e => h hw e.symm) b.ram
  · rcases Nat.lt_or_ge w.toNat 0x8000 with h' | h'
    · rw [Bus.peek_middle _ hw h', Bus.peek_middle _ hw h']
    · rw [Bus.peek_prg _ h', Bus.peek_prg _ h', Bus.writeRam_cart]

theorem Bus.writeRam_wf {b : Bus} (a : Addr) (v : Byte) (h : b.wf = true) : (b.writeRam a v).wf = true := by
  simp only [Bus.wf, Bool.and_eq_true] at h ⊢
  exact ⟨Memory.write_wf v (ramCell_lt a) h.1, h.2⟩

/-- What a bus write can do: land in RAM, be refused by the mapper, be dropped, or be left to an extra device. -/
theorem Bus.write_cases (b : Bus) (tick : Nat) (a : Addr) (v : Byte) :
    (a.toNat < 0x2000 ∧ b.write tick a v = .ok (b.writeRam a v)) ∨
    (0x8000 ≤ a.toNat ∧ b.write tick a v = .error .readOnly) ∨
    (0x2000 ≤ a.toNat ∧ a.toNat < 0x8000 ∧ b.claimed a = false ∧ b.write tick a v = .ok b) ∨
    (0x2000 ≤ a.toNat ∧ a.toNat < 0x8000 ∧ b.claimed a = true ∧
      (b.write tick a v = .ok b ∨ b.write tick a v = .error .device)) := by
  rcases Nat.lt_or_ge a.toNat 0x2000 with h | h
  · exact .inl ⟨h, by rw [Bus.write, b.route_ram h]⟩
  · rcases Nat.lt_or_ge a.toNat 0x8000 with h' | h'
    · cases hc : b.claimed a
      · exact .inr (.inr (.inl ⟨h, h', rfl, by rw [Bus.write, b.route_open h h' hc]⟩))
      · obtain ⟨d, hd⟩ := b.route_claimed h h' hc
        refine .inr (.inr (.inr ⟨h, h', rfl, ?_⟩))
        rw [Bus.write, hd]
        cases Config.deviceWriteFails tick a v
        · exact .inl rfl
        · exact .inr rfl
    · exact .inr (.inl ⟨h', by rw [Bus.write, b.route_mapper h']⟩)

theorem stackAddress_toNat (sp : Byte) : (stackAddress sp).toNat = 0x100 + sp.toNat := by
  rw [stackAddress, mkWord_toNat]; rfl

theorem stackAddress_lt (sp : Byte) : (stackAddress sp).toNat < 0x2000 := by
  have := sp.isLt
  rw [stackAddress_toNat]; omega

theorem ramCell_stackAddress (sp : Byte) : ramCell (stackAddress sp) = 0x100 + sp.toNat := by
  have := sp.isLt
  rw [ramCell_eq, stackAddress_toNat]; omega

/-- The write of a push is an ordinary bus write to RAM, and it cannot fail (R75, R127). -/
theorem Bus.write_stack (b : Bus) (tick : Nat) (sp v : Byte) :
    b.write tick (stackAddress sp) v = .ok (b.writeRam (stackAddress sp) v) := by
  rw [Bus.write, b.route_ram (stackAddress_lt sp)]

theorem Bus.read_stack (b : Bus) (tick : Nat) (slot : Config.ReadSlot) (sp : Byte) :
    b.read tick slot (stackAddress sp) = b.ram.read (0x100 + sp.toNat) := by
  rw [Bus.read, b.route_ram (stackAddress_lt sp)]
  exact congrArg _ (ramCell_stackAddress sp)

/-! Every operation that changes an array keeps its canonical form, and the arrays of `State.reset` have it. -/

theorem Bus.write_wf {b b' : Bus} {tick : Nat} {a : Addr} {v : Byte} (h : b.wf = true) (e : b.write tick a v = .ok b') :
    b'.wf = true := by
  rcases b.write_cases tick a v with ⟨-, e'⟩ | ⟨-, e'⟩ | ⟨-, -, -, e'⟩ | ⟨-, -, -, e' | e'⟩ <;> rw [e'] at e <;> cases e
  · exact Bus.writeRam_wf a v h
  · exact h
  · exact h

theorem Cartridge.prgIndex_lt (c : Cartridge) {a : Addr} (h : 0x8000 ≤ a.toNat) : c.prgIndex a < c.banks.size := by
  have hs : (a - Config.prgStart).toNat < 32768 := by
    have := a.isLt
    simp only [Config.prgStart]
    bv_omega
  unfold Cartridge.prgIndex
  cases c.banks
  · simp only [BitVec.toNat_and, Config.prgMirrorMask, BitVec.toNat_ofNat]
    have : (a - Config.prgStart).toNat &&& 0x3FFF % 2 ^ 16 ≤ 0x3FFF % 2 ^ 16 := Nat.and_le_right
    simp only [PrgBanks.size, Config.prgBank]
    omega
  · exact hs

theorem Bus.place_wf {b b' : Bus} {a : Addr} {v : Byte} (h : b.wf = true) (e : b.place a v = some b') : b'.wf = true := by
  unfold Bus.place at e
  rcases Nat.lt_or_ge a.toNat 0x2000 with ha | ha
  · rw [b.route_ram ha] at e
    cases e
    exact Bus.writeRam_wf a v h
  · rcases Nat.lt_or_ge a.toNat 0x8000 with ha' | ha'
    · cases hc : b.claimed a
      · rw [b.route_open ha ha' hc] at e; cases e
      · obtain ⟨d, hd⟩ := b.route_claimed ha ha' hc
        rw [hd] at e; cases e
    · rw [b.route_mapper ha'] at e
      cases e
      simp only [Bus.wf, Cartridge.wf, Bool.and_eq_true] at h ⊢
      exact ⟨h.1, Memory.write_wf v (b.cart.prgIndex_lt ha') h.2.1, h.2.2⟩

theorem Bus.placeAll_wf : {b b' : Bus} → {a : Addr} → {bytes : List Byte} → b.wf = true → b.placeAll a bytes = some b' →
    b'.wf = true
  | _, _, _, [], h, e => by cases e; exact h
  | b, _, a, v :: vs, h, e => by
    unfold Bus.placeAll at e
    obtain ⟨c, hc, e'⟩ := Option.bind_eq_some_iff.1 e
    exact Bus.placeAll_wf (Bus.place_wf h hc) e'

theorem State.reset_arrays_wf :
    State.reset.bus.ram.wf Config.ramSize = true ∧ State.reset.bus.cart.prg.wf Config.prgBank = true :=
  ⟨rfl, rfl⟩

end Sys2Proof.Machine
end

