-- ==== Sys2Proof/Laws/Decode.lean ====
section
/-! SUPPORT. The decoder and the encoder: what a lookup finds, what assembling operand bytes gives, and what a successful
decoding says. -/

namespace Sys2Proof

/-- In a table without duplicates every entry is the one its opcode byte selects. -/
theorem OpcodeTable.lookup_of_mem {e : Entry} : {t : OpcodeTable} → t.distinct = true → e ∈ t → t.lookup e.opcode = some e
  | a :: t, h, he => by
    simp only [OpcodeTable.distinct, Bool.and_eq_true, List.all_eq_true] at h
    simp only [OpcodeTable.lookup, List.find?_cons]
    rcases List.mem_cons.1 he with rfl | he'
    · simp
    · have hne : (a.opcode == e.opcode) = false := by
        have := h.1 e he'
        simp only [bne_iff_ne, beq_eq_false_iff_ne] at this ⊢
        exact this.symm
      rw [hne]
      exact OpcodeTable.lookup_of_mem h.2 he'

/-- The entry a lookup finds stands in the table under the byte looked up. -/
theorem OpcodeTable.lookup_spec {t : OpcodeTable} {op : Byte} {e : Entry} (h : t.lookup op = some e) :
    e ∈ t ∧ e.opcode = op :=
  ⟨List.mem_of_find?_eq_some h, by simpa using List.find?_some h⟩

/-- Every entry of the default table is well-formed. -/
theorem OpcodeTable.wf_of_mem_mos6502 {e : Entry} (h : e ∈ OpcodeTable.mos6502) : e.wf = true :=
  List.all_eq_true.1 (by decide : OpcodeTable.mos6502.all Entry.wf = true) e h

/-- Every entry of the default table pairs a mnemonic with a mode in which it has a constructor. -/
theorem OpcodeTable.modes_of_mem_mos6502 {e : Entry} (h : e ∈ OpcodeTable.mos6502) :
    e.mnemonic.modes.contains e.mode = true :=
  List.all_eq_true.1 (by decide : OpcodeTable.mos6502.all (fun e => e.mnemonic.modes.contains e.mode) = true) e h

/-- The conditions of R88 on an entry. -/
theorem Entry.wf_iff (e : Entry) :
    e.wf = true ↔ e.length = e.mode.length ∧ (e.modifier = .branch → e.mode = .rel) ∧
      (e.modifier = .pageCross → e.mode ∈ [Mode.abx, .aby, .izy]) := by
  obtain ⟨op, m, mode, n, c, modifier⟩ := e
  cases modifier <;> cases mode <;> simp [Entry.wf]

/-- No byte stands twice (U9). -/
theorem OpcodeTable.distinct_iff : (t : OpcodeTable) → t.distinct = true ↔ (t.map Entry.opcode).Nodup
  | [] => by simp [OpcodeTable.distinct]
  | e :: t => by
    simp [OpcodeTable.distinct, OpcodeTable.distinct_iff t]

/-- What the table of a machine is known to be (R88, U9). -/
theorem Params.entry_wf (p : Params) {e : Entry} (h : e ∈ p.table) : e.wf = true :=
  List.all_eq_true.1 (Bool.and_eq_true_iff.1 p.table_wf).1 e h

/-- What the check of a table answers. -/
theorem Params.make_spec (t : OpcodeTable) (implemented : List Mnemonic) :
    (∃ h : t.wf = true, Params.make t implemented = .ok ⟨t, implemented, h⟩) ∨
      (t.wf = false ∧ Params.make t implemented = .error .tableNotWellFormed) := by
  by_cases h : t.wf = true
  · exact .inl ⟨h, by rw [Params.make, dif_pos h]⟩
  · exact .inr ⟨by simpa using h, by rw [Params.make, dif_neg h]⟩

/-- What `assemble` makes has the mnemonic and the mode it was made of. -/
theorem assemble_spec {m : Mnemonic} {mode : Mode} {b1 b2 : Byte} {i : Instr} (h : assemble m mode b1 b2 = some i) :
    i.mnemonic = m ∧ i.mode = mode := by
  cases m <;> cases mode <;> first | (simp [assemble] at h; done) | (cases h; exact ⟨rfl, rfl⟩)

/-- What `assemble` makes has the operand of its mode and bytes. -/
theorem assemble_operand {m : Mnemonic} {mode : Mode} {b1 b2 : Byte} {i : Instr} (h : assemble m mode b1 b2 = some i) :
    i.operand = operandOf mode b1 b2 := by
  cases m <;> cases mode <;> first | (simp [assemble] at h; done) | (cases h; rfl)

/-- A mnemonic and a mode in which it has a constructor assemble, whatever the operand bytes. -/
theorem assemble_of_modes {m : Mnemonic} {mode : Mode} (h : m.modes.contains mode = true) (b1 b2 : Byte) :
    ∃ i, assemble m mode b1 b2 = some i := by
  cases m <;> cases mode <;> first | exact ⟨_, rfl⟩ | simp [Mnemonic.modes] at h

/-- An instruction is assembled from its own operand bytes, with anything behind them. -/
theorem assemble_self (i : Instr) (rest : List Byte) :
    assemble i.mnemonic i.mode ((i.operand.bytes ++ rest).getD 0 0#8) ((i.operand.bytes ++ rest).getD 1 0#8) = some i := by
  cases i <;> simp [assemble, Instr.mnemonic, Instr.mode, Instr.operand, Operand.mode, MemOperand.mode, Operand.bytes]

/-- The length of an instruction: its opcode byte and its operand bytes (R80). -/
theorem Instr.length_eq (i : Instr) : i.length = i.operand.bytes.length + 1 := by
  cases i <;> rfl

/-- What a successful decoding says. -/
theorem decode_spec {bytes rest : List Byte} {i : Instr} (h : decode bytes = .ok (i, rest)) :
    ∃ op e r, bytes = op :: r ∧ OpcodeTable.mos6502.lookup op = some e ∧ e.length ≤ r.length + 1 ∧
      assemble e.mnemonic e.mode (r.getD 0 0#8) (r.getD 1 0#8) = some i ∧ rest = r.drop (e.length - 1) := by
  unfold decode decodeWith at h
  cases bytes with
  | nil => cases h
  | cons op r =>
    simp only at h
    split at h
    · cases h
    · next e he =>
      split at h
      · cases h
      · split at h
        · cases h
        · next j hj =>
          cases h
          exact ⟨op, e, r, rfl, he, by omega, hj, rfl⟩

end Sys2Proof
end

