-- ==== Sys2Proof/Laws/Flags.lean ====
section
/-! SUPPORT. The flag computations: which flags each leaves alone, and the bits of the status byte. -/

namespace Sys2Proof.Machine

@[simp] theorem Flags.setZN_c (f : Flags) (r : Byte) : (f.setZN r).c = f.c := rfl
@[simp] theorem Flags.setZN_z (f : Flags) (r : Byte) : (f.setZN r).z = (r == 0#8) := rfl
@[simp] theorem Flags.setZN_i (f : Flags) (r : Byte) : (f.setZN r).i = f.i := rfl
@[simp] theorem Flags.setZN_d (f : Flags) (r : Byte) : (f.setZN r).d = f.d := rfl
@[simp] theorem Flags.setZN_b (f : Flags) (r : Byte) : (f.setZN r).b = f.b := rfl
@[simp] theorem Flags.setZN_v (f : Flags) (r : Byte) : (f.setZN r).v = f.v := rfl
@[simp] theorem Flags.setZN_n (f : Flags) (r : Byte) : (f.setZN r).n = r.getLsbD 7 := rfl

@[simp] theorem Flags.unpack_b (f : Flags) (p : Byte) : (f.unpack p).b = f.b := rfl

@[simp] theorem Flags.compare_i (f : Flags) (r m : Byte) : (f.compare r m).i = f.i := rfl
@[simp] theorem Flags.compare_d (f : Flags) (r m : Byte) : (f.compare r m).d = f.d := rfl
@[simp] theorem Flags.compare_b (f : Flags) (r m : Byte) : (f.compare r m).b = f.b := rfl
@[simp] theorem Flags.compare_v (f : Flags) (r m : Byte) : (f.compare r m).v = f.v := rfl

@[simp] theorem Flags.bitTest_c (f : Flags) (a m : Byte) : (f.bitTest a m).c = f.c := rfl
@[simp] theorem Flags.bitTest_i (f : Flags) (a m : Byte) : (f.bitTest a m).i = f.i := rfl
@[simp] theorem Flags.bitTest_d (f : Flags) (a m : Byte) : (f.bitTest a m).d = f.d := rfl
@[simp] theorem Flags.bitTest_b (f : Flags) (a m : Byte) : (f.bitTest a m).b = f.b := rfl

@[simp] theorem Flags.adc_i (f : Flags) (a m : Byte) : (f.adc a m).2.i = f.i := rfl
@[simp] theorem Flags.adc_d (f : Flags) (a m : Byte) : (f.adc a m).2.d = f.d := rfl
@[simp] theorem Flags.adc_b (f : Flags) (a m : Byte) : (f.adc a m).2.b = f.b := rfl

@[simp] theorem Flags.sbc_i (f : Flags) (a m : Byte) : (f.sbc a m).2.i = f.i := rfl
@[simp] theorem Flags.sbc_d (f : Flags) (a m : Byte) : (f.sbc a m).2.d = f.d := rfl
@[simp] theorem Flags.sbc_b (f : Flags) (a m : Byte) : (f.sbc a m).2.b = f.b := rfl

/-- The bits of the status byte (R24). -/
theorem Flags.pack_bits (f : Flags) :
    f.pack.getLsbD 7 = f.n ∧ f.pack.getLsbD 6 = f.v ∧ f.pack.getLsbD 5 = true ∧ f.pack.getLsbD 4 = f.b ∧
      f.pack.getLsbD 3 = f.d ∧ f.pack.getLsbD 2 = f.i ∧ f.pack.getLsbD 1 = f.z ∧ f.pack.getLsbD 0 = f.c := by
  obtain ⟨c, z, i, d, b, v, n⟩ := f
  revert c z i d b v n
  decide

/-- Pulling what was pushed restores the flags, B as it was (R24, R25). -/
theorem Flags.unpack_pack (f g : Flags) : f.unpack g.pack = { g with b := f.b } := by
  obtain ⟨h7, h6, -, -, h3, h2, h1, h0⟩ := g.pack_bits
  simp only [Flags.unpack, h7, h6, h3, h2, h1, h0]

end Sys2Proof.Machine
end

