-- ==== Sys2Proof/Laws/Ops.lean ====
section
/-! SUPPORT. What each shared operation over registers and memory can do, said once. -/

namespace Sys2Proof.Machine

@[simp] theorem State.setBus_bus_self (s : State) : s.setBus s.bus = s := rfl

/-- What a memory write can do (R61): land in RAM, be refused by the mapper with the state as it is, be dropped, or be left
to an extra device. -/
theorem State.write_cases (s : State) (a : Addr) (v : Byte) :
    (a.toNat < 0x2000 ∧ s.write a v = .next (s.setBus (s.bus.writeRam a v))) ∨
    (0x8000 ≤ a.toNat ∧ s.write a v = .fault (.romWriteViolation a v s)) ∨
    (0x2000 ≤ a.toNat ∧ a.toNat < 0x8000 ∧ s.bus.claimed a = false ∧ s.write a v = .next s) ∨
    (0x2000 ≤ a.toNat ∧ a.toNat < 0x8000 ∧ s.bus.claimed a = true ∧
      (s.write a v = .next s ∨ s.write a v = .fault (.deviceError a v s))) := by
  rcases s.bus.write_cases s.tick a v with ⟨h, e⟩ | ⟨h, e⟩ | ⟨h, h', hc, e⟩ | ⟨h, h', hc, e | e⟩
  · exact .inl ⟨h, by rw [State.write, e]⟩
  · exact .inr (.inl ⟨h, by rw [State.write, e]⟩)
  · exact .inr (.inr (.inl ⟨h, h', hc, by rw [State.write, e]; rfl⟩))
  · exact .inr (.inr (.inr ⟨h, h', hc, .inl (by rw [State.write, e]; rfl)⟩))
  · exact .inr (.inr (.inr ⟨h, h', hc, .inr (by rw [State.write, e])⟩))

/-- A push is a bus write and a decrement of SP (R127). -/
theorem State.push_eq_write (s : State) (v : Byte) :
    s.write (stackAddress s.sp) v = .next (s.setBus (s.bus.writeRam (stackAddress s.sp) v)) := by
  rw [State.write, Bus.write_stack]

/-- A pull reads the RAM cell above SP (R128). -/
theorem State.pull_value (s : State) : s.pull.1 = s.bus.ram.read (0x100 + (s.sp + 1#8).toNat) :=
  Bus.read_stack _ _ _ _

theorem State.pullWord_value (s : State) :
    s.pullWord.1 = mkWord (s.bus.ram.read (0x100 + (s.sp + 1#8 + 1#8).toNat))
      (s.bus.ram.read (0x100 + (s.sp + 1#8).toNat)) := by
  change mkWord s.pull.2.pull.1 s.pull.1 = _
  rw [State.pull_value, State.pull_value]
  rfl

/-- The vector reads of the trap come from PRG, so nothing pushed changes them. -/
theorem State.takeTrap_pc (s : State) :
    s.takeTrap.pc = mkWord (s.bus.cart.readPrg 0xFFFF#16) (s.bus.cart.readPrg 0xFFFE#16) := by
  change mkWord (Bus.read _ _ _ (0xFFFE#16 + 1#16)) (Bus.read _ _ _ 0xFFFE#16) = _
  rw [Bus.read_prg _ _ _ (by decide), Bus.read_prg _ _ _ (by decide)]
  rfl

@[simp] theorem State.takeTrap_a (s : State) : s.takeTrap.a = s.a := by
  simp [State.takeTrap, State.pushWord]
@[simp] theorem State.takeTrap_x (s : State) : s.takeTrap.x = s.x := by
  simp [State.takeTrap, State.pushWord]
@[simp] theorem State.takeTrap_y (s : State) : s.takeTrap.y = s.y := by
  simp [State.takeTrap, State.pushWord]
@[simp] theorem State.takeTrap_sp (s : State) : s.takeTrap.sp = s.sp - 1#8 - 1#8 - 1#8 := by
  simp [State.takeTrap, State.pushWord]
@[simp] theorem State.takeTrap_flags (s : State) : s.takeTrap.flags = { s.flags with i := true } := by
  simp [State.takeTrap, State.pushWord]
@[simp] theorem State.takeTrap_tick (s : State) : s.takeTrap.tick = s.tick := by
  simp [State.takeTrap, State.pushWord]
@[simp] theorem State.takeTrap_bus (s : State) :
    s.takeTrap.bus = ((s.bus.writeRam (stackAddress s.sp) (hi (s.pc + 1#16))).writeRam
      (stackAddress (s.sp - 1#8)) (lo (s.pc + 1#16))).writeRam (stackAddress (s.sp - 1#8 - 1#8)) s.flags.pack := by
  simp [State.takeTrap, State.pushWord]

@[simp] theorem State.returnFromTrap_a (s : State) : s.returnFromTrap.a = s.a := by
  simp [State.returnFromTrap]
@[simp] theorem State.returnFromTrap_x (s : State) : s.returnFromTrap.x = s.x := by
  simp [State.returnFromTrap]
@[simp] theorem State.returnFromTrap_y (s : State) : s.returnFromTrap.y = s.y := by
  simp [State.returnFromTrap]
@[simp] theorem State.returnFromTrap_sp (s : State) : s.returnFromTrap.sp = s.sp + 1#8 + 1#8 + 1#8 := by
  simp [State.returnFromTrap]
@[simp] theorem State.returnFromTrap_bus (s : State) : s.returnFromTrap.bus = s.bus := by
  simp [State.returnFromTrap]
@[simp] theorem State.returnFromTrap_tick (s : State) : s.returnFromTrap.tick = s.tick := by
  simp [State.returnFromTrap]

theorem State.returnFromTrap_flags (s : State) :
    s.returnFromTrap.flags = s.flags.unpack (s.bus.ram.read (0x100 + (s.sp + 1#8).toNat)) := by
  change s.flags.unpack s.pull.1 = _
  rw [State.pull_value]

theorem State.returnFromTrap_pc (s : State) :
    s.returnFromTrap.pc = mkWord (s.bus.ram.read (0x100 + (s.sp + 1#8 + 1#8 + 1#8).toNat))
      (s.bus.ram.read (0x100 + (s.sp + 1#8 + 1#8).toNat)) := by
  change (State.pullWord _).1 = _
  rw [State.pullWord_value]
  rfl

/-- The two bytes of a word read (R62). -/
theorem State.readWord_toNat (s : State) (l h : Config.ReadSlot) (a : Addr) :
    (s.readWord l h a).toNat = (s.read h (a + 1#16)).toNat * 256 + (s.read l a).toNat := mkWord_toNat _ _

/-- The two bytes of a zero-page pointer (R63). -/
theorem State.readWordZp_toNat (s : State) (zp : Byte) :
    (s.readWordZp zp).toNat =
      (s.bus.ram.read (zp + 1#8).toNat).toNat * 256 + (s.bus.ram.read zp.toNat).toNat := by
  have h (b : Byte) (slot : Config.ReadSlot) : s.read slot (zext16 b) = s.bus.ram.read b.toNat := by
    have := b.isLt
    rw [State.read, Bus.read_ram _ _ _ (by rw [zext16_toNat]; omega), zext16_toNat, Nat.mod_eq_of_lt (by omega)]
  rw [State.readWordZp, mkWord_toNat, h, h]

end Sys2Proof.Machine
end

