-- ==== Sys2Proof/Laws/Exec.lean ====
section
/-! SUPPORT. What `exec` can do, said once for each shape of instruction: every later fact about all instructions starts
from these instead of unfolding `exec`. -/

namespace Sys2Proof.Machine

/-- The mnemonics of the eight branches. -/
def isBranch : Mnemonic → Bool
  | .bcc | .bcs | .beq | .bmi | .bne | .bpl | .bvc | .bvs => true
  | _ => false

/-- What `exec` can do: it is one of seven shapes, and the mnemonic says which. -/
theorem exec_cases (i : Instr) (s : State) :
    (∃ f v, readOperation i.mnemonic = some f ∧ i.operand.load s = some v ∧
      exec i s = .next (f v (s.advance i.length))) ∨
    (∃ v m, storedRegister i.mnemonic s = some v ∧ i.operand = .mem m ∧ exec i s = storeMem v m s) ∨
    (∃ op, modifyOperation i.mnemonic = some op ∧ i.operand = .acc ∧ exec i s = modifyAcc op s) ∨
    (∃ op m, modifyOperation i.mnemonic = some op ∧ i.operand = .mem m ∧ exec i s = modifyMem op m s) ∨
    (∃ f, impliedOperation i.mnemonic = some f ∧ i.operand = .imp ∧ exec i s = .next (f (s.advance 1))) ∨
    (∃ off, isBranch i.mnemonic = true ∧ i.operand = .rel off ∧
      exec i s = branch (branchTaken i.mnemonic s.flags) off s) ∨
    (∃ w, (i = .jmpAbs w ∧ exec i s = jump w s) ∨ (i = .jmpInd w ∧ exec i s = jump (indTarget s w) s) ∨
      (i = .jsr w ∧ exec i s = execJsr w s)) := by
  cases i
  case jmpAbs w => exact .inr (.inr (.inr (.inr (.inr (.inr ⟨w, .inl ⟨rfl, rfl⟩⟩)))))
  case jmpInd w => exact .inr (.inr (.inr (.inr (.inr (.inr ⟨w, .inr (.inl ⟨rfl, rfl⟩)⟩)))))
  case jsr w => exact .inr (.inr (.inr (.inr (.inr (.inr ⟨w, .inr (.inr ⟨rfl, rfl⟩)⟩)))))
  all_goals first
    | exact .inl ⟨_, _, rfl, rfl, rfl⟩
    | exact .inr (.inl ⟨_, _, rfl, rfl, rfl⟩)
    | exact .inr (.inr (.inl ⟨_, rfl, rfl, rfl⟩))
    | exact .inr (.inr (.inr (.inl ⟨_, _, rfl, rfl, rfl⟩)))
    | exact .inr (.inr (.inr (.inr (.inl ⟨_, rfl, rfl, rfl⟩))))
    | exact .inr (.inr (.inr (.inr (.inr (.inl ⟨_, rfl, rfl, rfl⟩)))))

/-- A branch through its own mode (R183). -/
theorem execForm_branch {m : Mnemonic} (h : isBranch m = true) (off : Byte) (s : State) :
    execForm m (.rel off) s = branch (branchTaken m s.flags) off s := by
  cases m <;> first
    | (cases h; done)
    | simp only [execForm, operate, readOperation, storedRegister, modifyOperation, impliedOperation, transferControl,
        branch]
      cases branchTaken _ s.flags <;> rfl

/-- Each meaning is the operation of its mnemonic through its operand (R105): the arms of `exec` and the operations agree. -/
theorem exec_eq_execForm (i : Instr) (s : State) : exec i s = execForm i.mnemonic i.operand s := by
  cases i <;> first | rfl | exact (execForm_branch rfl _ s).symm

/-- The length of an instruction with a memory operand. -/
theorem length_mem {i : Instr} {m : MemOperand} (h : i.operand = .mem m) : i.length = m.mode.length := by
  rw [Sys2Proof.Instr.length, Sys2Proof.Instr.mode, h]; rfl

/-- What an instruction that writes through its effective address can do: `v` is the byte written, `f` the flags after. -/
theorem exec_write_cases (i : Instr) (s : State) (m : MemOperand) (ho : i.operand = .mem m)
    (hw : (storedRegister i.mnemonic s).isSome = true ∨ (modifyOperation i.mnemonic).isSome = true) :
    ∃ v f, ((storedRegister i.mnemonic s = some v ∧ f = s.flags) ∨
        ∃ op, modifyOperation i.mnemonic = some op ∧ v = (op s.flags (m.load s)).1 ∧ f = (op s.flags (m.load s)).2) ∧
      (((m.ea s).toNat < 0x2000 ∧
          exec i s = .next (((s.advance i.length).setBus (s.bus.writeRam (m.ea s) v)).setFlags f)) ∨
        (0x8000 ≤ (m.ea s).toNat ∧ exec i s = .fault (.romWriteViolation (m.ea s) v (s.advance i.length))) ∨
        (0x2000 ≤ (m.ea s).toNat ∧ (m.ea s).toNat < 0x8000 ∧ s.bus.claimed (m.ea s) = false ∧
          exec i s = .next ((s.advance i.length).setFlags f)) ∨
        (0x2000 ≤ (m.ea s).toNat ∧ (m.ea s).toNat < 0x8000 ∧ s.bus.claimed (m.ea s) = true ∧
          (exec i s = .next ((s.advance i.length).setFlags f) ∨
            exec i s = .fault (.deviceError (m.ea s) v (s.advance i.length))))) := by
  rcases exec_cases i s with ⟨f, v, hf, -, -⟩ | ⟨v, m', hs, ho', e⟩ | ⟨op, -, ho', -⟩ | ⟨op, m', hp, ho', e⟩ | ⟨f, -, ho', -⟩ |
    ⟨off, -, ho', -⟩ | ⟨w, ⟨rfl, -⟩ | ⟨rfl, -⟩ | ⟨rfl, -⟩⟩
  · exfalso; revert hf hw
    cases i.mnemonic <;> simp [readOperation, storedRegister, modifyOperation]
  · rw [ho] at ho'; cases ho'
    refine ⟨v, s.flags, .inl ⟨hs, rfl⟩, ?_⟩
    rw [e, length_mem ho, storeMem]
    exact State.write_cases (s.advance m.mode.length) (m.ea s) v
  · rw [ho] at ho'; cases ho'
  · rw [ho] at ho'; cases ho'
    refine ⟨_, _, .inr ⟨op, hp, rfl, rfl⟩, ?_⟩
    rw [e, length_mem ho, modifyMem]
    rcases State.write_cases (s.advance m.mode.length) (m.ea s) (op s.flags (m.load s)).1 with
      ⟨h, h'⟩ | ⟨h, h'⟩ | ⟨h, h2, h3, h'⟩ | ⟨h, h2, h3, h' | h'⟩
    · exact .inl ⟨h, by simp [h']⟩
    · exact .inr (.inl ⟨h, by simp [h']⟩)
    · exact .inr (.inr (.inl ⟨h, h2, h3, by simp [h']⟩))
    · exact .inr (.inr (.inr ⟨h, h2, h3, .inl (by simp [h'])⟩))
    · exact .inr (.inr (.inr ⟨h, h2, h3, .inr (by simp [h'])⟩))
  · rw [ho] at ho'; cases ho'
  · rw [ho] at ho'; cases ho'
  all_goals simp [storedRegister, modifyOperation, Sys2Proof.Instr.mnemonic] at hw

end Sys2Proof.Machine
end

