-- ==== Sys2Proof/Laws/Step.lean ====
section
/-! SUPPORT. The step: which bytes decode, and that a step is the execution of the instruction fetched or the fault of an
illegal opcode byte. -/

namespace Sys2Proof.Machine

theorem allMnemonics_contains (m : Mnemonic) : Params.core.implemented.contains m = true := by
  cases m <;> rfl

/-- When the opcode byte has an entry, the bytes at PC decode to an instruction of that entry. -/
theorem decode_fetchBytes {s : State} {e : Entry} (h : OpcodeTable.mos6502.lookup s.opcodeByte = some e) :
    ∃ i, decode s.fetchBytes = .ok (i, s.fetchBytes.drop e.length) ∧ e.mnemonic = i.mnemonic ∧ e.mode = i.mode ∧
      e.length = i.length := by
  have hmem := (OpcodeTable.lookup_spec h).1
  have hlen : e.length = e.mode.length := (e.wf_iff.1 (OpcodeTable.wf_of_mem_mos6502 hmem)).1
  obtain ⟨i, hi⟩ := assemble_of_modes (OpcodeTable.modes_of_mem_mos6502 hmem) (s.read .operandLow (s.pc + 1#16)) (s.read .operandHigh (s.pc + 2#16))
  obtain ⟨hm, hmode⟩ := assemble_spec hi
  refine ⟨i, ?_, hm.symm, hmode.symm, by rw [hlen, ← hmode]; rfl⟩
  obtain ⟨k, hk, hk'⟩ : ∃ k, e.length = k + 1 ∧ k < 3 := by
    rw [hlen]; cases e.mode <;> exact ⟨_, rfl, by decide⟩
  unfold decode decodeWith State.fetchBytes
  simp only [h]
  rw [if_neg (by simp only [List.length_cons, List.length_nil]; omega)]
  simp only [List.getD_cons_zero, List.getD_cons_succ, hi, hk, List.drop_succ_cons, Nat.add_sub_cancel]

/-- A step whose opcode byte has an entry runs the instruction decoded, and its count is that of the entry. -/
theorem runStep_of_decode {s : State} {i : Instr} {rest : List Byte} (h : decode s.fetchBytes = .ok (i, rest)) :
    ∃ e, OpcodeTable.mos6502.lookup s.opcodeByte = some e ∧ e.mnemonic = i.mnemonic ∧ e.mode = i.mode ∧
      e.length = i.length ∧ runStep .core s = account (cycleCount e i.operand s) (exec i s) := by
  obtain ⟨op, e, r, hb, hl, -, -, -⟩ := decode_spec h
  have hop : s.opcodeByte = op := by
    have := congrArg List.head? hb
    simpa [State.fetchBytes] using this
  rw [← hop] at hl
  obtain ⟨j, hj, h1, h2, h3⟩ := decode_fetchBytes hl
  rw [h] at hj
  cases hj
  refine ⟨e, hl, h1, h2, h3, ?_⟩
  have hl' : Params.core.table.lookup s.opcodeByte = some e := hl
  have h' : decodeWith Params.core.table s.fetchBytes = .ok (i, _) := h
  simp only [runStep, hl', allMnemonics_contains, h', if_true]

/-- Under any parameters, a step whose opcode byte has an implemented entry runs the operation of the entry's mnemonic
through the operand of its mode, and counts it by the entry (R100). -/
theorem runStep_of_lookup {p : Params} {s : State} {e : Entry} (h : p.table.lookup s.opcodeByte = some e)
    (hi : p.implemented.contains e.mnemonic = true) :
    runStep p s =
      account (cycleCount e (s.fetchOperand e.mode) s) (execForm e.mnemonic (s.fetchOperand e.mode) s) := by
  have hlen := (e.wf_iff.1 (p.entry_wf (OpcodeTable.lookup_spec h).1)).1
  have h3 : ¬ [s.read .operandLow (s.pc + 1#16), s.read .operandHigh (s.pc + 2#16)].length + 1 < e.length := by
    rw [hlen]; cases e.mode <;> simp [Mode.length]
  simp only [runStep, h, hi, if_true, decodeWith, State.fetchBytes, if_neg h3, List.getD_cons_zero, List.getD_cons_succ]
  cases ha : assemble e.mnemonic e.mode (s.read .operandLow (s.pc + 1#16)) (s.read .operandHigh (s.pc + 2#16)) with
  | none => rfl
  | some i => simp only [exec_eq_execForm, assemble_operand ha, (assemble_spec ha).1, State.fetchOperand]

/-- The transactions of a step that runs an instruction are the instruction's. -/
theorem stepTransactions_of_decode {s : State} {i : Instr} {rest : List Byte} (h : decode s.fetchBytes = .ok (i, rest)) :
    stepTransactions s = instrTransactions i s := by
  obtain ⟨op, e, r, hb, hl, -, ha, -⟩ := decode_spec h
  obtain ⟨rfl, rfl⟩ := List.cons.inj hb
  have hl' : Params.core.table.lookup s.opcodeByte = some e := hl
  simp only [stepTransactions, runTransactions, hl', allMnemonics_contains, if_true, instrTransactions,
    assemble_operand ha, (assemble_spec ha).1]
  rfl

/-- A step at a byte without an entry reads that byte alone. -/
theorem stepTransactions_of_miss {s : State} (h : OpcodeTable.mos6502.lookup s.opcodeByte = none) :
    stepTransactions s = [.read s.pc s.opcodeByte] := by
  have hl : Params.core.table.lookup s.opcodeByte = none := h
  simp only [stepTransactions, runTransactions, hl, opcodeTransaction]

/-- What a step can be. -/
theorem step_cases (s : State) :
    (OpcodeTable.mos6502.lookup s.opcodeByte = none ∧ (∃ e, decode s.fetchBytes = .error e) ∧
      runStep .core s = .fault (.illegalOpcode s.opcodeByte s.pc s)) ∨
    ∃ i rest, decode s.fetchBytes = .ok (i, rest) ∧ step s = exec i s := by
  cases h : OpcodeTable.mos6502.lookup s.opcodeByte with
  | none =>
    refine .inl ⟨rfl, ⟨.illegalOpcode s.opcodeByte, by simp only [decode, decodeWith, State.fetchBytes, h]⟩, ?_⟩
    have hl : Params.core.table.lookup s.opcodeByte = none := h
    simp only [runStep, hl]
  | some e =>
    obtain ⟨i, hi, -⟩ := decode_fetchBytes h
    obtain ⟨e', -, -, -, -, hr⟩ := runStep_of_decode hi
    refine .inr ⟨i, _, hi, ?_⟩
    rw [step, hr]
    cases exec i s <;> rfl

end Sys2Proof.Machine
end

