-- ==== Sys2Proof/Laws/Forms.lean ====
section
/-! SUPPORT. What the operation of a mnemonic through any operand can do, and that it keeps the invariant: what `exec` says
of the pairs of R89, said of every entry a well-formed table may hold. -/

namespace Sys2Proof.Machine

/-- `StoreOperand` outside mode ACC. -/
theorem storeOperand_of_ne {o : Operand} (ho : o ≠ .acc) (s t : State) (v : Byte) :
    storeOperand o s v t = (o.ea s).map (fun a => t.write a v) := by
  cases o <;> first | exact absurd rfl ho | rfl

/-- What `StoreOperand` can do. -/
theorem storeOperand_cases {o : Operand} {s t : State} {v : Byte} {r : Result} (h : storeOperand o s v t = some r) :
    (o = .acc ∧ r = .next (t.setA v)) ∨ ∃ a, o.ea s = some a ∧ r = t.write a v := by
  by_cases ho : o = .acc
  · subst ho
    exact .inl ⟨rfl, (Option.some.inj h).symm⟩
  · rw [storeOperand_of_ne ho] at h
    obtain ⟨a, ha, rfl⟩ := Option.map_eq_some_iff.1 h
    exact .inr ⟨a, ha, rfl⟩

/-- What a read-modify-write can do. -/
theorem modifyOperand_cases {op : ModifyOp} {o : Operand} {s t : State} {r : Result}
    (h : modifyOperand op o s t = some r) :
    ∃ v q, o.load s = some v ∧ storeOperand o s (op s.flags v).1 t = some q ∧
      ((∃ u, q = .next u ∧ r = .next (u.setFlags (op s.flags v).2)) ∨ (∃ e, q = .fault e ∧ r = .fault e) ∨
        ∃ e, q = .refused e ∧ r = .refused e) := by
  obtain ⟨v, hv, h⟩ := Option.bind_eq_some_iff.1 h
  obtain ⟨q, hq, rfl⟩ := Option.map_eq_some_iff.1 h
  refine ⟨v, q, hv, hq, ?_⟩
  cases q with
  | next u => exact .inl ⟨u, rfl, rfl⟩
  | fault e => exact .inr (.inl ⟨e, rfl, rfl⟩)
  | refused e => exact .inr (.inr ⟨e, rfl, rfl⟩)

/-- What a transfer of control can do: JSR pushes and jumps, any other stays or jumps. -/
theorem transferControl_cases {m : Mnemonic} {o : Operand} {s t : State} {r : Result}
    (h : transferControl m o s t = some r) :
    (m = .jsr ∧ ∃ a, o.ea s = some a ∧ r = .next ((t.pushWord (t.pc - 1#16)).setPc a)) ∨
      (m ≠ .jsr ∧ (r = .next t ∨ ∃ a, o.ea s = some a ∧ r = .next (t.setPc a))) := by
  cases m
  case jsr =>
    obtain ⟨a, ha, rfl⟩ := Option.map_eq_some_iff.1 h
    exact .inl ⟨rfl, a, ha, rfl⟩
  case jmp =>
    obtain ⟨a, ha, rfl⟩ := Option.map_eq_some_iff.1 h
    exact .inr ⟨nofun, .inr ⟨a, ha, rfl⟩⟩
  all_goals
    refine .inr ⟨nofun, ?_⟩
    simp only [transferControl] at h
    split at h
    · obtain ⟨a, ha, rfl⟩ := Option.map_eq_some_iff.1 h
      exact .inr ⟨a, ha, rfl⟩
    · exact .inl (Option.some.inj h).symm

/-- What the operation of a mnemonic through an operand can do: one of five shapes, or the refusal of an absent address. -/
theorem execForm_cases (m : Mnemonic) (o : Operand) (s : State) :
    (∃ f v, readOperation m = some f ∧ o.load s = some v ∧ execForm m o s = .next (f v (s.advance o.mode.length))) ∨
    (∃ v, storedRegister m s = some v ∧ storeOperand o s v (s.advance o.mode.length) = some (execForm m o s)) ∨
    (∃ op, modifyOperation m = some op ∧ modifyOperand op o s (s.advance o.mode.length) = some (execForm m o s)) ∨
    (∃ f, impliedOperation m = some f ∧ execForm m o s = .next (f (s.advance o.mode.length))) ∨
    (readOperation m = none ∧ storedRegister m s = none ∧ modifyOperation m = none ∧ impliedOperation m = none ∧
      transferControl m o s (s.advance o.mode.length) = some (execForm m o s)) ∨
    execForm m o s = .refused (.noAddress m o.mode) := by
  simp only [execForm]
  cases h : operate m o s with
  | none => exact .inr (.inr (.inr (.inr (.inr rfl))))
  | some r =>
    simp only [operate] at h
    rw [Option.getD_some]
    split at h
    · next f hf =>
      obtain ⟨v, hv, rfl⟩ := Option.map_eq_some_iff.1 h
      exact .inl ⟨f, v, hf, hv, rfl⟩
    · next v _ hv => exact .inr (.inl ⟨v, hv, h⟩)
    · next op _ _ hop => exact .inr (.inr (.inl ⟨op, hop, h⟩))
    · next f _ _ _ hf => exact .inr (.inr (.inr (.inl ⟨f, hf, (Option.some.inj h).symm⟩)))
    · next h1 h2 h3 h4 => exact .inr (.inr (.inr (.inr (.inl ⟨h1, h2, h3, h4, h⟩))))

end Sys2Proof.Machine
end

