-- ==== Sys2Proof/Laws/PerInstr.lean ====
section
/-! SUPPORT. Facts about every instruction as syntax, one lemma for each constructor: its row of the opcode table. -/

/-- The default table holds the instruction's row (spec/30_encoding.md R89): it is the entry of its own opcode byte, its
mnemonic exists in its mode, and its length is the opcode byte and the operand bytes (R80 to R83, R88). -/
def Sys2Proof.Laws.TableRow.Statement (i : Sys2Proof.Instr) : Prop :=
  i.wf .core = true ∧ i.mnemonic.modes.contains i.mode = true ∧ i.length = i.operand.bytes.length + 1 ∧
    ∃ e, Sys2Proof.OpcodeTable.mos6502.entryOf i = some e ∧ e.wf = true ∧ e.length = i.length ∧
      Sys2Proof.OpcodeTable.mos6502.lookup e.opcode = some e

theorem Sys2Proof.Laws.TableRow.ldaImm (v : Sys2Proof.Byte) :
    Sys2Proof.Laws.TableRow.Statement (.ldaImm v) :=
  ⟨rfl, rfl, rfl, _, rfl, rfl, rfl, rfl⟩

theorem Sys2Proof.Laws.TableRow.ldaZp (zp : Sys2Proof.Byte) :
    Sys2Proof.Laws.TableRow.Statement (.ldaZp zp) :=
  ⟨rfl, rfl, rfl, _, rfl, rfl, rfl, rfl⟩

theorem Sys2Proof.Laws.TableRow.ldaZpx (zp : Sys2Proof.Byte) :
    Sys2Proof.Laws.TableRow.Statement (.ldaZpx zp) :=
  ⟨rfl, rfl, rfl, _, rfl, rfl, rfl, rfl⟩

theorem Sys2Proof.Laws.TableRow.ldaAbs (w : Sys2Proof.Addr) :
    Sys2Proof.Laws.TableRow.Statement (.ldaAbs w) :=
  ⟨rfl, rfl, rfl, _, rfl, rfl, rfl, rfl⟩

theorem Sys2Proof.Laws.TableRow.ldaAbx (w : Sys2Proof.Addr) :
    Sys2Proof.Laws.TableRow.Statement (.ldaAbx w) :=
  ⟨rfl, rfl, rfl, _, rfl, rfl, rfl, rfl⟩

theorem Sys2Proof.Laws.TableRow.ldaAby (w : Sys2Proof.Addr) :
    Sys2Proof.Laws.TableRow.Statement (.ldaAby w) :=
  ⟨rfl, rfl, rfl, _, rfl, rfl, rfl, rfl⟩

theorem Sys2Proof.Laws.TableRow.ldaIzx (zp : Sys2Proof.Byte) :
    Sys2Proof.Laws.TableRow.Statement (.ldaIzx zp) :=
  ⟨rfl, rfl, rfl, _, rfl, rfl, rfl, rfl⟩

theorem Sys2Proof.Laws.TableRow.ldaIzy (zp : Sys2Proof.Byte) :
    Sys2Proof.Laws.TableRow.Statement (.ldaIzy zp) :=
  ⟨rfl, rfl, rfl, _, rfl, rfl, rfl, rfl⟩

theorem Sys2Proof.Laws.TableRow.ldxImm (v : Sys2Proof.Byte) :
    Sys2Proof.Laws.TableRow.Statement (.ldxImm v) :=
  ⟨rfl, rfl, rfl, _, rfl, rfl, rfl, rfl⟩

theorem Sys2Proof.Laws.TableRow.ldxZp (zp : Sys2Proof.Byte) :
    Sys2Proof.Laws.TableRow.Statement (.ldxZp zp) :=
  ⟨rfl, rfl, rfl, _, rfl, rfl, rfl, rfl⟩

theorem Sys2Proof.Laws.TableRow.ldxZpy (zp : Sys2Proof.Byte) :
    Sys2Proof.Laws.TableRow.Statement (.ldxZpy zp) :=
  ⟨rfl, rfl, rfl, _, rfl, rfl, rfl, rfl⟩

theorem Sys2Proof.Laws.TableRow.ldxAbs (w : Sys2Proof.Addr) :
    Sys2Proof.Laws.TableRow.Statement (.ldxAbs w) :=
  ⟨rfl, rfl, rfl, _, rfl, rfl, rfl, rfl⟩

theorem Sys2Proof.Laws.TableRow.ldxAby (w : Sys2Proof.Addr) :
    Sys2Proof.Laws.TableRow.Statement (.ldxAby w) :=
  ⟨rfl, rfl, rfl, _, rfl, rfl, rfl, rfl⟩

theorem Sys2Proof.Laws.TableRow.ldyImm (v : Sys2Proof.Byte) :
    Sys2Proof.Laws.TableRow.Statement (.ldyImm v) :=
  ⟨rfl, rfl, rfl, _, rfl, rfl, rfl, rfl⟩

theorem Sys2Proof.Laws.TableRow.ldyZp (zp : Sys2Proof.Byte) :
    Sys2Proof.Laws.TableRow.Statement (.ldyZp zp) :=
  ⟨rfl, rfl, rfl, _, rfl, rfl, rfl, rfl⟩

theorem Sys2Proof.Laws.TableRow.ldyZpx (zp : Sys2Proof.Byte) :
    Sys2Proof.Laws.TableRow.Statement (.ldyZpx zp) :=
  ⟨rfl, rfl, rfl, _, rfl, rfl, rfl, rfl⟩

theorem Sys2Proof.Laws.TableRow.ldyAbs (w : Sys2Proof.Addr) :
    Sys2Proof.Laws.TableRow.Statement (.ldyAbs w) :=
  ⟨rfl, rfl, rfl, _, rfl, rfl, rfl, rfl⟩

theorem Sys2Proof.Laws.TableRow.ldyAbx (w : Sys2Proof.Addr) :
    Sys2Proof.Laws.TableRow.Statement (.ldyAbx w) :=
  ⟨rfl, rfl, rfl, _, rfl, rfl, rfl, rfl⟩

theorem Sys2Proof.Laws.TableRow.staZp (zp : Sys2Proof.Byte) :
    Sys2Proof.Laws.TableRow.Statement (.staZp zp) :=
  ⟨rfl, rfl, rfl, _, rfl, rfl, rfl, rfl⟩

theorem Sys2Proof.Laws.TableRow.staZpx (zp : Sys2Proof.Byte) :
    Sys2Proof.Laws.TableRow.Statement (.staZpx zp) :=
  ⟨rfl, rfl, rfl, _, rfl, rfl, rfl, rfl⟩

theorem Sys2Proof.Laws.TableRow.staAbs (w : Sys2Proof.Addr) :
    Sys2Proof.Laws.TableRow.Statement (.staAbs w) :=
  ⟨rfl, rfl, rfl, _, rfl, rfl, rfl, rfl⟩

theorem Sys2Proof.Laws.TableRow.staAbx (w : Sys2Proof.Addr) :
    Sys2Proof.Laws.TableRow.Statement (.staAbx w) :=
  ⟨rfl, rfl, rfl, _, rfl, rfl, rfl, rfl⟩

theorem Sys2Proof.Laws.TableRow.staAby (w : Sys2Proof.Addr) :
    Sys2Proof.Laws.TableRow.Statement (.staAby w) :=
  ⟨rfl, rfl, rfl, _, rfl, rfl, rfl, rfl⟩

theorem Sys2Proof.Laws.TableRow.staIzx (zp : Sys2Proof.Byte) :
    Sys2Proof.Laws.TableRow.Statement (.staIzx zp) :=
  ⟨rfl, rfl, rfl, _, rfl, rfl, rfl, rfl⟩

theorem Sys2Proof.Laws.TableRow.staIzy (zp : Sys2Proof.Byte) :
    Sys2Proof.Laws.TableRow.Statement (.staIzy zp) :=
  ⟨rfl, rfl, rfl, _, rfl, rfl, rfl, rfl⟩

theorem Sys2Proof.Laws.TableRow.stxZp (zp : Sys2Proof.Byte) :
    Sys2Proof.Laws.TableRow.Statement (.stxZp zp) :=
  ⟨rfl, rfl, rfl, _, rfl, rfl, rfl, rfl⟩

theorem Sys2Proof.Laws.TableRow.stxZpy (zp : Sys2Proof.Byte) :
    Sys2Proof.Laws.TableRow.Statement (.stxZpy zp) :=
  ⟨rfl, rfl, rfl, _, rfl, rfl, rfl, rfl⟩

theorem Sys2Proof.Laws.TableRow.stxAbs (w : Sys2Proof.Addr) :
    Sys2Proof.Laws.TableRow.Statement (.stxAbs w) :=
  ⟨rfl, rfl, rfl, _, rfl, rfl, rfl, rfl⟩

theorem Sys2Proof.Laws.TableRow.styZp (zp : Sys2Proof.Byte) :
    Sys2Proof.Laws.TableRow.Statement (.styZp zp) :=
  ⟨rfl, rfl, rfl, _, rfl, rfl, rfl, rfl⟩

theorem Sys2Proof.Laws.TableRow.styZpx (zp : Sys2Proof.Byte) :
    Sys2Proof.Laws.TableRow.Statement (.styZpx zp) :=
  ⟨rfl, rfl, rfl, _, rfl, rfl, rfl, rfl⟩

theorem Sys2Proof.Laws.TableRow.styAbs (w : Sys2Proof.Addr) :
    Sys2Proof.Laws.TableRow.Statement (.styAbs w) :=
  ⟨rfl, rfl, rfl, _, rfl, rfl, rfl, rfl⟩

theorem Sys2Proof.Laws.TableRow.tax :
    Sys2Proof.Laws.TableRow.Statement .tax :=
  ⟨rfl, rfl, rfl, _, rfl, rfl, rfl, rfl⟩

theorem Sys2Proof.Laws.TableRow.tay :
    Sys2Proof.Laws.TableRow.Statement .tay :=
  ⟨rfl, rfl, rfl, _, rfl, rfl, rfl, rfl⟩

theorem Sys2Proof.Laws.TableRow.txa :
    Sys2Proof.Laws.TableRow.Statement .txa :=
  ⟨rfl, rfl, rfl, _, rfl, rfl, rfl, rfl⟩

theorem Sys2Proof.Laws.TableRow.tya :
    Sys2Proof.Laws.TableRow.Statement .tya :=
  ⟨rfl, rfl, rfl, _, rfl, rfl, rfl, rfl⟩

theorem Sys2Proof.Laws.TableRow.tsx :
    Sys2Proof.Laws.TableRow.Statement .tsx :=
  ⟨rfl, rfl, rfl, _, rfl, rfl, rfl, rfl⟩

theorem Sys2Proof.Laws.TableRow.txs :
    Sys2Proof.Laws.TableRow.Statement .txs :=
  ⟨rfl, rfl, rfl, _, rfl, rfl, rfl, rfl⟩

theorem Sys2Proof.Laws.TableRow.adcImm (v : Sys2Proof.Byte) :
    Sys2Proof.Laws.TableRow.Statement (.adcImm v) :=
  ⟨rfl, rfl, rfl, _, rfl, rfl, rfl, rfl⟩

theorem Sys2Proof.Laws.TableRow.adcZp (zp : Sys2Proof.Byte) :
    Sys2Proof.Laws.TableRow.Statement (.adcZp zp) :=
  ⟨rfl, rfl, rfl, _, rfl, rfl, rfl, rfl⟩

theorem Sys2Proof.Laws.TableRow.adcZpx (zp : Sys2Proof.Byte) :
    Sys2Proof.Laws.TableRow.Statement (.adcZpx zp) :=
  ⟨rfl, rfl, rfl, _, rfl, rfl, rfl, rfl⟩

theorem Sys2Proof.Laws.TableRow.adcAbs (w : Sys2Proof.Addr) :
    Sys2Proof.Laws.TableRow.Statement (.adcAbs w) :=
  ⟨rfl, rfl, rfl, _, rfl, rfl, rfl, rfl⟩

theorem Sys2Proof.Laws.TableRow.adcAbx (w : Sys2Proof.Addr) :
    Sys2Proof.Laws.TableRow.Statement (.adcAbx w) :=
  ⟨rfl, rfl, rfl, _, rfl, rfl, rfl, rfl⟩

theorem Sys2Proof.Laws.TableRow.adcAby (w : Sys2Proof.Addr) :
    Sys2Proof.Laws.TableRow.Statement (.adcAby w) :=
  ⟨rfl, rfl, rfl, _, rfl, rfl, rfl, rfl⟩

theorem Sys2Proof.Laws.TableRow.adcIzx (zp : Sys2Proof.Byte) :
    Sys2Proof.Laws.TableRow.Statement (.adcIzx zp) :=
  ⟨rfl, rfl, rfl, _, rfl, rfl, rfl, rfl⟩

theorem Sys2Proof.Laws.TableRow.adcIzy (zp : Sys2Proof.Byte) :
    Sys2Proof.Laws.TableRow.Statement (.adcIzy zp) :=
  ⟨rfl, rfl, rfl, _, rfl, rfl, rfl, rfl⟩

theorem Sys2Proof.Laws.TableRow.sbcImm (v : Sys2Proof.Byte) :
    Sys2Proof.Laws.TableRow.Statement (.sbcImm v) :=
  ⟨rfl, rfl, rfl, _, rfl, rfl, rfl, rfl⟩

theorem Sys2Proof.Laws.TableRow.sbcZp (zp : Sys2Proof.Byte) :
    Sys2Proof.Laws.TableRow.Statement (.sbcZp zp) :=
  ⟨rfl, rfl, rfl, _, rfl, rfl, rfl, rfl⟩

theorem Sys2Proof.Laws.TableRow.sbcZpx (zp : Sys2Proof.Byte) :
    Sys2Proof.Laws.TableRow.Statement (.sbcZpx zp) :=
  ⟨rfl, rfl, rfl, _, rfl, rfl, rfl, rfl⟩

theorem Sys2Proof.Laws.TableRow.sbcAbs (w : Sys2Proof.Addr) :
    Sys2Proof.Laws.TableRow.Statement (.sbcAbs w) :=
  ⟨rfl, rfl, rfl, _, rfl, rfl, rfl, rfl⟩

theorem Sys2Proof.Laws.TableRow.sbcAbx (w : Sys2Proof.Addr) :
    Sys2Proof.Laws.TableRow.Statement (.sbcAbx w) :=
  ⟨rfl, rfl, rfl, _, rfl, rfl, rfl, rfl⟩

theorem Sys2Proof.Laws.TableRow.sbcAby (w : Sys2Proof.Addr) :
    Sys2Proof.Laws.TableRow.Statement (.sbcAby w) :=
  ⟨rfl, rfl, rfl, _, rfl, rfl, rfl, rfl⟩

theorem Sys2Proof.Laws.TableRow.sbcIzx (zp : Sys2Proof.Byte) :
    Sys2Proof.Laws.TableRow.Statement (.sbcIzx zp) :=
  ⟨rfl, rfl, rfl, _, rfl, rfl, rfl, rfl⟩

theorem Sys2Proof.Laws.TableRow.sbcIzy (zp : Sys2Proof.Byte) :
    Sys2Proof.Laws.TableRow.Statement (.sbcIzy zp) :=
  ⟨rfl, rfl, rfl, _, rfl, rfl, rfl, rfl⟩

theorem Sys2Proof.Laws.TableRow.andImm (v : Sys2Proof.Byte) :
    Sys2Proof.Laws.TableRow.Statement (.andImm v) :=
  ⟨rfl, rfl, rfl, _, rfl, rfl, rfl, rfl⟩

theorem Sys2Proof.Laws.TableRow.andZp (zp : Sys2Proof.Byte) :
    Sys2Proof.Laws.TableRow.Statement (.andZp zp) :=
  ⟨rfl, rfl, rfl, _, rfl, rfl, rfl, rfl⟩

theorem Sys2Proof.Laws.TableRow.andZpx (zp : Sys2Proof.Byte) :
    Sys2Proof.Laws.TableRow.Statement (.andZpx zp) :=
  ⟨rfl, rfl, rfl, _, rfl, rfl, rfl, rfl⟩

theorem Sys2Proof.Laws.TableRow.andAbs (w : Sys2Proof.Addr) :
    Sys2Proof.Laws.TableRow.Statement (.andAbs w) :=
  ⟨rfl, rfl, rfl, _, rfl, rfl, rfl, rfl⟩

theorem Sys2Proof.Laws.TableRow.andAbx (w : Sys2Proof.Addr) :
    Sys2Proof.Laws.TableRow.Statement (.andAbx w) :=
  ⟨rfl, rfl, rfl, _, rfl, rfl, rfl, rfl⟩

theorem Sys2Proof.Laws.TableRow.andAby (w : Sys2Proof.Addr) :
    Sys2Proof.Laws.TableRow.Statement (.andAby w) :=
  ⟨rfl, rfl, rfl, _, rfl, rfl, rfl, rfl⟩

theorem Sys2Proof.Laws.TableRow.andIzx (zp : Sys2Proof.Byte) :
    Sys2Proof.Laws.TableRow.Statement (.andIzx zp) :=
  ⟨rfl, rfl, rfl, _, rfl, rfl, rfl, rfl⟩

theorem Sys2Proof.Laws.TableRow.andIzy (zp : Sys2Proof.Byte) :
    Sys2Proof.Laws.TableRow.Statement (.andIzy zp) :=
  ⟨rfl, rfl, rfl, _, rfl, rfl, rfl, rfl⟩

theorem Sys2Proof.Laws.TableRow.oraImm (v : Sys2Proof.Byte) :
    Sys2Proof.Laws.TableRow.Statement (.oraImm v) :=
  ⟨rfl, rfl, rfl, _, rfl, rfl, rfl, rfl⟩

theorem Sys2Proof.Laws.TableRow.oraZp (zp : Sys2Proof.Byte) :
    Sys2Proof.Laws.TableRow.Statement (.oraZp zp) :=
  ⟨rfl, rfl, rfl, _, rfl, rfl, rfl, rfl⟩

theorem Sys2Proof.Laws.TableRow.oraZpx (zp : Sys2Proof.Byte) :
    Sys2Proof.Laws.TableRow.Statement (.oraZpx zp) :=
  ⟨rfl, rfl, rfl, _, rfl, rfl, rfl, rfl⟩

theorem Sys2Proof.Laws.TableRow.oraAbs (w : Sys2Proof.Addr) :
    Sys2Proof.Laws.TableRow.Statement (.oraAbs w) :=
  ⟨rfl, rfl, rfl, _, rfl, rfl, rfl, rfl⟩

theorem Sys2Proof.Laws.TableRow.oraAbx (w : Sys2Proof.Addr) :
    Sys2Proof.Laws.TableRow.Statement (.oraAbx w) :=
  ⟨rfl, rfl, rfl, _, rfl, rfl, rfl, rfl⟩

theorem Sys2Proof.Laws.TableRow.oraAby (w : Sys2Proof.Addr) :
    Sys2Proof.Laws.TableRow.Statement (.oraAby w) :=
  ⟨rfl, rfl, rfl, _, rfl, rfl, rfl, rfl⟩

theorem Sys2Proof.Laws.TableRow.oraIzx (zp : Sys2Proof.Byte) :
    Sys2Proof.Laws.TableRow.Statement (.oraIzx zp) :=
  ⟨rfl, rfl, rfl, _, rfl, rfl, rfl, rfl⟩

theorem Sys2Proof.Laws.TableRow.oraIzy (zp : Sys2Proof.Byte) :
    Sys2Proof.Laws.TableRow.Statement (.oraIzy zp) :=
  ⟨rfl, rfl, rfl, _, rfl, rfl, rfl, rfl⟩

theorem Sys2Proof.Laws.TableRow.eorImm (v : Sys2Proof.Byte) :
    Sys2Proof.Laws.TableRow.Statement (.eorImm v) :=
  ⟨rfl, rfl, rfl, _, rfl, rfl, rfl, rfl⟩

theorem Sys2Proof.Laws.TableRow.eorZp (zp : Sys2Proof.Byte) :
    Sys2Proof.Laws.TableRow.Statement (.eorZp zp) :=
  ⟨rfl, rfl, rfl, _, rfl, rfl, rfl, rfl⟩

theorem Sys2Proof.Laws.TableRow.eorZpx (zp : Sys2Proof.Byte) :
    Sys2Proof.Laws.TableRow.Statement (.eorZpx zp) :=
  ⟨rfl, rfl, rfl, _, rfl, rfl, rfl, rfl⟩

theorem Sys2Proof.Laws.TableRow.eorAbs (w : Sys2Proof.Addr) :
    Sys2Proof.Laws.TableRow.Statement (.eorAbs w) :=
  ⟨rfl, rfl, rfl, _, rfl, rfl, rfl, rfl⟩

theorem Sys2Proof.Laws.TableRow.eorAbx (w : Sys2Proof.Addr) :
    Sys2Proof.Laws.TableRow.Statement (.eorAbx w) :=
  ⟨rfl, rfl, rfl, _, rfl, rfl, rfl, rfl⟩

theorem Sys2Proof.Laws.TableRow.eorAby (w : Sys2Proof.Addr) :
    Sys2Proof.Laws.TableRow.Statement (.eorAby w) :=
  ⟨rfl, rfl, rfl, _, rfl, rfl, rfl, rfl⟩

theorem Sys2Proof.Laws.TableRow.eorIzx (zp : Sys2Proof.Byte) :
    Sys2Proof.Laws.TableRow.Statement (.eorIzx zp) :=
  ⟨rfl, rfl, rfl, _, rfl, rfl, rfl, rfl⟩

theorem Sys2Proof.Laws.TableRow.eorIzy (zp : Sys2Proof.Byte) :
    Sys2Proof.Laws.TableRow.Statement (.eorIzy zp) :=
  ⟨rfl, rfl, rfl, _, rfl, rfl, rfl, rfl⟩

theorem Sys2Proof.Laws.TableRow.cmpImm (v : Sys2Proof.Byte) :
    Sys2Proof.Laws.TableRow.Statement (.cmpImm v) :=
  ⟨rfl, rfl, rfl, _, rfl, rfl, rfl, rfl⟩

theorem Sys2Proof.Laws.TableRow.cmpZp (zp : Sys2Proof.Byte) :
    Sys2Proof.Laws.TableRow.Statement (.cmpZp zp) :=
  ⟨rfl, rfl, rfl, _, rfl, rfl, rfl, rfl⟩

theorem Sys2Proof.Laws.TableRow.cmpZpx (zp : Sys2Proof.Byte) :
    Sys2Proof.Laws.TableRow.Statement (.cmpZpx zp) :=
  ⟨rfl, rfl, rfl, _, rfl, rfl, rfl, rfl⟩

theorem Sys2Proof.Laws.TableRow.cmpAbs (w : Sys2Proof.Addr) :
    Sys2Proof.Laws.TableRow.Statement (.cmpAbs w) :=
  ⟨rfl, rfl, rfl, _, rfl, rfl, rfl, rfl⟩

theorem Sys2Proof.Laws.TableRow.cmpAbx (w : Sys2Proof.Addr) :
    Sys2Proof.Laws.TableRow.Statement (.cmpAbx w) :=
  ⟨rfl, rfl, rfl, _, rfl, rfl, rfl, rfl⟩

theorem Sys2Proof.Laws.TableRow.cmpAby (w : Sys2Proof.Addr) :
    Sys2Proof.Laws.TableRow.Statement (.cmpAby w) :=
  ⟨rfl, rfl, rfl, _, rfl, rfl, rfl, rfl⟩

theorem Sys2Proof.Laws.TableRow.cmpIzx (zp : Sys2Proof.Byte) :
    Sys2Proof.Laws.TableRow.Statement (.cmpIzx zp) :=
  ⟨rfl, rfl, rfl, _, rfl, rfl, rfl, rfl⟩

theorem Sys2Proof.Laws.TableRow.cmpIzy (zp : Sys2Proof.Byte) :
    Sys2Proof.Laws.TableRow.Statement (.cmpIzy zp) :=
  ⟨rfl, rfl, rfl, _, rfl, rfl, rfl, rfl⟩

theorem Sys2Proof.Laws.TableRow.cpxImm (v : Sys2Proof.Byte) :
    Sys2Proof.Laws.TableRow.Statement (.cpxImm v) :=
  ⟨rfl, rfl, rfl, _, rfl, rfl, rfl, rfl⟩

theorem Sys2Proof.Laws.TableRow.cpxZp (zp : Sys2Proof.Byte) :
    Sys2Proof.Laws.TableRow.Statement (.cpxZp zp) :=
  ⟨rfl, rfl, rfl, _, rfl, rfl, rfl, rfl⟩

theorem Sys2Proof.Laws.TableRow.cpxAbs (w : Sys2Proof.Addr) :
    Sys2Proof.Laws.TableRow.Statement (.cpxAbs w) :=
  ⟨rfl, rfl, rfl, _, rfl, rfl, rfl, rfl⟩

theorem Sys2Proof.Laws.TableRow.cpyImm (v : Sys2Proof.Byte) :
    Sys2Proof.Laws.TableRow.Statement (.cpyImm v) :=
  ⟨rfl, rfl, rfl, _, rfl, rfl, rfl, rfl⟩

theorem Sys2Proof.Laws.TableRow.cpyZp (zp : Sys2Proof.Byte) :
    Sys2Proof.Laws.TableRow.Statement (.cpyZp zp) :=
  ⟨rfl, rfl, rfl, _, rfl, rfl, rfl, rfl⟩

theorem Sys2Proof.Laws.TableRow.cpyAbs (w : Sys2Proof.Addr) :
    Sys2Proof.Laws.TableRow.Statement (.cpyAbs w) :=
  ⟨rfl, rfl, rfl, _, rfl, rfl, rfl, rfl⟩

theorem Sys2Proof.Laws.TableRow.bitZp (zp : Sys2Proof.Byte) :
    Sys2Proof.Laws.TableRow.Statement (.bitZp zp) :=
  ⟨rfl, rfl, rfl, _, rfl, rfl, rfl, rfl⟩

theorem Sys2Proof.Laws.TableRow.bitAbs (w : Sys2Proof.Addr) :
    Sys2Proof.Laws.TableRow.Statement (.bitAbs w) :=
  ⟨rfl, rfl, rfl, _, rfl, rfl, rfl, rfl⟩

theorem Sys2Proof.Laws.TableRow.incZp (zp : Sys2Proof.Byte) :
    Sys2Proof.Laws.TableRow.Statement (.incZp zp) :=
  ⟨rfl, rfl, rfl, _, rfl, rfl, rfl, rfl⟩

theorem Sys2Proof.Laws.TableRow.incZpx (zp : Sys2Proof.Byte) :
    Sys2Proof.Laws.TableRow.Statement (.incZpx zp) :=
  ⟨rfl, rfl, rfl, _, rfl, rfl, rfl, rfl⟩

theorem Sys2Proof.Laws.TableRow.incAbs (w : Sys2Proof.Addr) :
    Sys2Proof.Laws.TableRow.Statement (.incAbs w) :=
  ⟨rfl, rfl, rfl, _, rfl, rfl, rfl, rfl⟩

theorem Sys2Proof.Laws.TableRow.incAbx (w : Sys2Proof.Addr) :
    Sys2Proof.Laws.TableRow.Statement (.incAbx w) :=
  ⟨rfl, rfl, rfl, _, rfl, rfl, rfl, rfl⟩

theorem Sys2Proof.Laws.TableRow.decZp (zp : Sys2Proof.Byte) :
    Sys2Proof.Laws.TableRow.Statement (.decZp zp) :=
  ⟨rfl, rfl, rfl, _, rfl, rfl, rfl, rfl⟩

theorem Sys2Proof.Laws.TableRow.decZpx (zp : Sys2Proof.Byte) :
    Sys2Proof.Laws.TableRow.Statement (.decZpx zp) :=
  ⟨rfl, rfl, rfl, _, rfl, rfl, rfl, rfl⟩

theorem Sys2Proof.Laws.TableRow.decAbs (w : Sys2Proof.Addr) :
    Sys2Proof.Laws.TableRow.Statement (.decAbs w) :=
  ⟨rfl, rfl, rfl, _, rfl, rfl, rfl, rfl⟩

theorem Sys2Proof.Laws.TableRow.decAbx (w : Sys2Proof.Addr) :
    Sys2Proof.Laws.TableRow.Statement (.decAbx w) :=
  ⟨rfl, rfl, rfl, _, rfl, rfl, rfl, rfl⟩

theorem Sys2Proof.Laws.TableRow.inx :
    Sys2Proof.Laws.TableRow.Statement .inx :=
  ⟨rfl, rfl, rfl, _, rfl, rfl, rfl, rfl⟩

theorem Sys2Proof.Laws.TableRow.iny :
    Sys2Proof.Laws.TableRow.Statement .iny :=
  ⟨rfl, rfl, rfl, _, rfl, rfl, rfl, rfl⟩

theorem Sys2Proof.Laws.TableRow.dex :
    Sys2Proof.Laws.TableRow.Statement .dex :=
  ⟨rfl, rfl, rfl, _, rfl, rfl, rfl, rfl⟩

theorem Sys2Proof.Laws.TableRow.dey :
    Sys2Proof.Laws.TableRow.Statement .dey :=
  ⟨rfl, rfl, rfl, _, rfl, rfl, rfl, rfl⟩

theorem Sys2Proof.Laws.TableRow.aslAcc :
    Sys2Proof.Laws.TableRow.Statement .aslAcc :=
  ⟨rfl, rfl, rfl, _, rfl, rfl, rfl, rfl⟩

theorem Sys2Proof.Laws.TableRow.aslZp (zp : Sys2Proof.Byte) :
    Sys2Proof.Laws.TableRow.Statement (.aslZp zp) :=
  ⟨rfl, rfl, rfl, _, rfl, rfl, rfl, rfl⟩

theorem Sys2Proof.Laws.TableRow.aslZpx (zp : Sys2Proof.Byte) :
    Sys2Proof.Laws.TableRow.Statement (.aslZpx zp) :=
  ⟨rfl, rfl, rfl, _, rfl, rfl, rfl, rfl⟩

theorem Sys2Proof.Laws.TableRow.aslAbs (w : Sys2Proof.Addr) :
    Sys2Proof.Laws.TableRow.Statement (.aslAbs w) :=
  ⟨rfl, rfl, rfl, _, rfl, rfl, rfl, rfl⟩

theorem Sys2Proof.Laws.TableRow.aslAbx (w : Sys2Proof.Addr) :
    Sys2Proof.Laws.TableRow.Statement (.aslAbx w) :=
  ⟨rfl, rfl, rfl, _, rfl, rfl, rfl, rfl⟩

theorem Sys2Proof.Laws.TableRow.lsrAcc :
    Sys2Proof.Laws.TableRow.Statement .lsrAcc :=
  ⟨rfl, rfl, rfl, _, rfl, rfl, rfl, rfl⟩

theorem Sys2Proof.Laws.TableRow.lsrZp (zp : Sys2Proof.Byte) :
    Sys2Proof.Laws.TableRow.Statement (.lsrZp zp) :=
  ⟨rfl, rfl, rfl, _, rfl, rfl, rfl, rfl⟩

theorem Sys2Proof.Laws.TableRow.lsrZpx (zp : Sys2Proof.Byte) :
    Sys2Proof.Laws.TableRow.Statement (.lsrZpx zp) :=
  ⟨rfl, rfl, rfl, _, rfl, rfl, rfl, rfl⟩

theorem Sys2Proof.Laws.TableRow.lsrAbs (w : Sys2Proof.Addr) :
    Sys2Proof.Laws.TableRow.Statement (.lsrAbs w) :=
  ⟨rfl, rfl, rfl, _, rfl, rfl, rfl, rfl⟩

theorem Sys2Proof.Laws.TableRow.lsrAbx (w : Sys2Proof.Addr) :
    Sys2Proof.Laws.TableRow.Statement (.lsrAbx w) :=
  ⟨rfl, rfl, rfl, _, rfl, rfl, rfl, rfl⟩

theorem Sys2Proof.Laws.TableRow.rolAcc :
    Sys2Proof.Laws.TableRow.Statement .rolAcc :=
  ⟨rfl, rfl, rfl, _, rfl, rfl, rfl, rfl⟩

theorem Sys2Proof.Laws.TableRow.rolZp (zp : Sys2Proof.Byte) :
    Sys2Proof.Laws.TableRow.Statement (.rolZp zp) :=
  ⟨rfl, rfl, rfl, _, rfl, rfl, rfl, rfl⟩

theorem Sys2Proof.Laws.TableRow.rolZpx (zp : Sys2Proof.Byte) :
    Sys2Proof.Laws.TableRow.Statement (.rolZpx zp) :=
  ⟨rfl, rfl, rfl, _, rfl, rfl, rfl, rfl⟩

theorem Sys2Proof.Laws.TableRow.rolAbs (w : Sys2Proof.Addr) :
    Sys2Proof.Laws.TableRow.Statement (.rolAbs w) :=
  ⟨rfl, rfl, rfl, _, rfl, rfl, rfl, rfl⟩

theorem Sys2Proof.Laws.TableRow.rolAbx (w : Sys2Proof.Addr) :
    Sys2Proof.Laws.TableRow.Statement (.rolAbx w) :=
  ⟨rfl, rfl, rfl, _, rfl, rfl, rfl, rfl⟩

theorem Sys2Proof.Laws.TableRow.rorAcc :
    Sys2Proof.Laws.TableRow.Statement .rorAcc :=
  ⟨rfl, rfl, rfl, _, rfl, rfl, rfl, rfl⟩

theorem Sys2Proof.Laws.TableRow.rorZp (zp : Sys2Proof.Byte) :
    Sys2Proof.Laws.TableRow.Statement (.rorZp zp) :=
  ⟨rfl, rfl, rfl, _, rfl, rfl, rfl, rfl⟩

theorem Sys2Proof.Laws.TableRow.rorZpx (zp : Sys2Proof.Byte) :
    Sys2Proof.Laws.TableRow.Statement (.rorZpx zp) :=
  ⟨rfl, rfl, rfl, _, rfl, rfl, rfl, rfl⟩

theorem Sys2Proof.Laws.TableRow.rorAbs (w : Sys2Proof.Addr) :
    Sys2Proof.Laws.TableRow.Statement (.rorAbs w) :=
  ⟨rfl, rfl, rfl, _, rfl, rfl, rfl, rfl⟩

theorem Sys2Proof.Laws.TableRow.rorAbx (w : Sys2Proof.Addr) :
    Sys2Proof.Laws.TableRow.Statement (.rorAbx w) :=
  ⟨rfl, rfl, rfl, _, rfl, rfl, rfl, rfl⟩

theorem Sys2Proof.Laws.TableRow.jmpAbs (w : Sys2Proof.Addr) :
    Sys2Proof.Laws.TableRow.Statement (.jmpAbs w) :=
  ⟨rfl, rfl, rfl, _, rfl, rfl, rfl, rfl⟩

theorem Sys2Proof.Laws.TableRow.jmpInd (w : Sys2Proof.Addr) :
    Sys2Proof.Laws.TableRow.Statement (.jmpInd w) :=
  ⟨rfl, rfl, rfl, _, rfl, rfl, rfl, rfl⟩

theorem Sys2Proof.Laws.TableRow.jsr (w : Sys2Proof.Addr) :
    Sys2Proof.Laws.TableRow.Statement (.jsr w) :=
  ⟨rfl, rfl, rfl, _, rfl, rfl, rfl, rfl⟩

theorem Sys2Proof.Laws.TableRow.rts :
    Sys2Proof.Laws.TableRow.Statement .rts :=
  ⟨rfl, rfl, rfl, _, rfl, rfl, rfl, rfl⟩

theorem Sys2Proof.Laws.TableRow.bcc (off : Sys2Proof.Byte) :
    Sys2Proof.Laws.TableRow.Statement (.bcc off) :=
  ⟨rfl, rfl, rfl, _, rfl, rfl, rfl, rfl⟩

theorem Sys2Proof.Laws.TableRow.bcs (off : Sys2Proof.Byte) :
    Sys2Proof.Laws.TableRow.Statement (.bcs off) :=
  ⟨rfl, rfl, rfl, _, rfl, rfl, rfl, rfl⟩

theorem Sys2Proof.Laws.TableRow.beq (off : Sys2Proof.Byte) :
    Sys2Proof.Laws.TableRow.Statement (.beq off) :=
  ⟨rfl, rfl, rfl, _, rfl, rfl, rfl, rfl⟩

theorem Sys2Proof.Laws.TableRow.bmi (off : Sys2Proof.Byte) :
    Sys2Proof.Laws.TableRow.Statement (.bmi off) :=
  ⟨rfl, rfl, rfl, _, rfl, rfl, rfl, rfl⟩

theorem Sys2Proof.Laws.TableRow.bne (off : Sys2Proof.Byte) :
    Sys2Proof.Laws.TableRow.Statement (.bne off) :=
  ⟨rfl, rfl, rfl, _, rfl, rfl, rfl, rfl⟩

theorem Sys2Proof.Laws.TableRow.bpl (off : Sys2Proof.Byte) :
    Sys2Proof.Laws.TableRow.Statement (.bpl off) :=
  ⟨rfl, rfl, rfl, _, rfl, rfl, rfl, rfl⟩

theorem Sys2Proof.Laws.TableRow.bvc (off : Sys2Proof.Byte) :
    Sys2Proof.Laws.TableRow.Statement (.bvc off) :=
  ⟨rfl, rfl, rfl, _, rfl, rfl, rfl, rfl⟩

theorem Sys2Proof.Laws.TableRow.bvs (off : Sys2Proof.Byte) :
    Sys2Proof.Laws.TableRow.Statement (.bvs off) :=
  ⟨rfl, rfl, rfl, _, rfl, rfl, rfl, rfl⟩

theorem Sys2Proof.Laws.TableRow.pha :
    Sys2Proof.Laws.TableRow.Statement .pha :=
  ⟨rfl, rfl, rfl, _, rfl, rfl, rfl, rfl⟩

theorem Sys2Proof.Laws.TableRow.php :
    Sys2Proof.Laws.TableRow.Statement .php :=
  ⟨rfl, rfl, rfl, _, rfl, rfl, rfl, rfl⟩

theorem Sys2Proof.Laws.TableRow.pla :
    Sys2Proof.Laws.TableRow.Statement .pla :=
  ⟨rfl, rfl, rfl, _, rfl, rfl, rfl, rfl⟩

theorem Sys2Proof.Laws.TableRow.plp :
    Sys2Proof.Laws.TableRow.Statement .plp :=
  ⟨rfl, rfl, rfl, _, rfl, rfl, rfl, rfl⟩

theorem Sys2Proof.Laws.TableRow.clc :
    Sys2Proof.Laws.TableRow.Statement .clc :=
  ⟨rfl, rfl, rfl, _, rfl, rfl, rfl, rfl⟩

theorem Sys2Proof.Laws.TableRow.sec :
    Sys2Proof.Laws.TableRow.Statement .sec :=
  ⟨rfl, rfl, rfl, _, rfl, rfl, rfl, rfl⟩

theorem Sys2Proof.Laws.TableRow.cli :
    Sys2Proof.Laws.TableRow.Statement .cli :=
  ⟨rfl, rfl, rfl, _, rfl, rfl, rfl, rfl⟩

theorem Sys2Proof.Laws.TableRow.sei :
    Sys2Proof.Laws.TableRow.Statement .sei :=
  ⟨rfl, rfl, rfl, _, rfl, rfl, rfl, rfl⟩

theorem Sys2Proof.Laws.TableRow.cld :
    Sys2Proof.Laws.TableRow.Statement .cld :=
  ⟨rfl, rfl, rfl, _, rfl, rfl, rfl, rfl⟩

theorem Sys2Proof.Laws.TableRow.sed :
    Sys2Proof.Laws.TableRow.Statement .sed :=
  ⟨rfl, rfl, rfl, _, rfl, rfl, rfl, rfl⟩

theorem Sys2Proof.Laws.TableRow.clv :
    Sys2Proof.Laws.TableRow.Statement .clv :=
  ⟨rfl, rfl, rfl, _, rfl, rfl, rfl, rfl⟩

theorem Sys2Proof.Laws.TableRow.nop :
    Sys2Proof.Laws.TableRow.Statement .nop :=
  ⟨rfl, rfl, rfl, _, rfl, rfl, rfl, rfl⟩

theorem Sys2Proof.Laws.TableRow.brk :
    Sys2Proof.Laws.TableRow.Statement .brk :=
  ⟨rfl, rfl, rfl, _, rfl, rfl, rfl, rfl⟩

theorem Sys2Proof.Laws.TableRow.rti :
    Sys2Proof.Laws.TableRow.Statement .rti :=
  ⟨rfl, rfl, rfl, _, rfl, rfl, rfl, rfl⟩
end

