-- ==== Sys2Proof/Tests/Slice0.lean ====
section
/-! SUPPORT. The model's own tests: well-formedness smoke, decoding of words written out from the spec's encodings, single
steps of spec/95_test_vectors.md (the vector's name stands above each), and for each obligation with hypotheses a witness
that meets them. -/

namespace Sys2Proof.Tests

open Sys2Proof.Machine

/-! ## Builders -/

/-- Bytes placed at an address, in RAM or in the cartridge. -/
def put (s : State) (a : Addr) (bytes : List Byte) : State :=
  { s with bus := (s.bus.placeAll a bytes).getD s.bus }

/-- The state of `State.reset` with code at `a`, other bytes placed, and PC at `a`. -/
def start (a : Addr) (code : List Byte) (cells : List (Addr × List Byte)) : State :=
  { cells.foldl (fun s c => put s c.1 c.2) (put State.reset a code) with pc := a }

/-- The step returns `n` cycles and a state with the property. -/
def completes (n : Nat) (p : State → Bool) (s : State) : Bool :=
  match runStep .core s with
  | .ok k t => k == n && p t
  | .fault _ => false
  | .refused _ => false

/-- The step faults with `RomWriteViolation`, and what it leaves has the property and differs in PC alone (and `tick`). -/
def romFault (a : Addr) (v : Byte) (p : State → Bool) (s : State) : Bool :=
  match step s with
  | .fault (.romWriteViolation a' v' t) => a' == a && v' == v && p t && t == { s with pc := t.pc, tick := t.tick }
  | _ => false

/-- The step faults with `IllegalOpcode`, and what it leaves has the property and is the state before. -/
def illegalFault (op : Byte) (pc0 : Addr) (p : State → Bool) (s : State) : Bool :=
  match step s with
  | .fault (.illegalOpcode op' a t) => op' == op && a == pc0 && p t && t == s
  | _ => false

/-- Each byte sequence, with one more byte after it, decodes to its instruction and leaves that byte. -/
def decodes (l : List (List Byte × Instr)) : Bool :=
  l.all (fun x => (decode (x.1 ++ [0x77#8])).toOption == some (x.2, [0x77#8]))

/-- A cartridge of two banks with the given PRG bytes. -/
def twoBanks (prg : Memory) : Cartridge := ⟨.two, prg, none⟩

/-- A bus with one extra device at 0x4000 to 0x401F. -/
def deviceBus : Bus := { State.reset.bus with extra := [⟨0x4000#16, 0x401F#16⟩] }

/-- The default table with ADC alone implemented (R95). -/
def adcOnly : Params := ⟨.mos6502, [.adc], Params.core.table_wf⟩

/-- A well-formed table with entries outside R89. -/
def otherParams : Params :=
  ⟨[⟨0x02#8, .sta, .imm, 2, 5, .none⟩, ⟨0x03#8, .jmp, .abx, 3, 4, .pageCross⟩, ⟨0x04#8, .inc, .acc, 1, 2, .none⟩,
      ⟨0x07#8, .lda, .ind, 3, 6, .none⟩, ⟨0x0B#8, .lda, .imp, 1, 2, .none⟩,
      ⟨0x0C#8, .jsr, .zp, 2, 6, .none⟩, ⟨0x0F#8, .brk, .imm, 2, 7, .none⟩], Params.allMnemonics, rfl⟩

/-! ## Well-formedness: what each check refuses -/

/-- Length 3 for a two-byte mode (R88). -/
theorem test_entry_with_a_wrong_length_is_refused :
    (Entry.mk 0x69#8 .adc .imm 3 2 .none).wf = false ∧ (Entry.mk 0x69#8 .adc .imm 2 2 .none).wf = true := by decide

/-- `branch` outside mode REL, `page_cross` outside ABX, ABY, IZY (R88). -/
theorem test_entry_with_a_misplaced_modifier_is_refused :
    (Entry.mk 0x69#8 .adc .imm 2 2 .branch).wf = false ∧ (Entry.mk 0x6D#8 .adc .abs 3 4 .pageCross).wf = false ∧
    (Entry.mk 0x90#8 .bcc .rel 2 2 .branch).wf = true ∧ (Entry.mk 0x71#8 .adc .izy 2 5 .pageCross).wf = true := by decide

/-- R88 says nothing of which mnemonic goes with which mode. -/
theorem test_entry_outside_the_default_table_is_accepted : (Entry.mk 0x89#8 .sta .imm 2 2 .none).wf = true := by decide

/-- One byte under two entries (U9). -/
theorem test_table_with_a_repeated_byte_is_refused :
    OpcodeTable.wf [⟨0xEA#8, .nop, .imp, 1, 2, .none⟩, ⟨0xEA#8, .clc, .imp, 1, 2, .none⟩] = false := by decide

/-- Parameters are made of a well-formed table only: a wrong length, a misplaced modifier, a repeated byte (R88, U9). -/
theorem test_parameters_of_an_ill_formed_table_are_refused :
    (Params.make [⟨0x69#8, .adc, .imm, 3, 2, .none⟩] [.adc]).toOption = none ∧
    (Params.make [⟨0x69#8, .adc, .imm, 2, 2, .pageCross⟩] [.adc]).toOption = none ∧
    (Params.make [⟨0xEA#8, .nop, .imp, 1, 2, .none⟩, ⟨0xEA#8, .clc, .imp, 1, 2, .none⟩] [.nop]).toOption = none ∧
    (Params.make [⟨0x69#8, .adc, .imm, 2, 2, .none⟩] [.adc]).toOption =
      some ⟨[⟨0x69#8, .adc, .imm, 2, 2, .none⟩], [.adc], rfl⟩ := by decide

/-- An instruction the table does not hold, or IMPLEMENTED does not (R95). -/
theorem test_instruction_outside_the_parameters_is_refused :
    Instr.wf ⟨[], Params.allMnemonics, rfl⟩ .nop = false ∧ Instr.wf adcOnly .nop = false ∧
    Instr.wf adcOnly (.adcImm 0x05#8) = true := by decide

/-- Cells out of order, repeated, out of range, or holding the fill byte. -/
theorem test_memory_not_canonical_is_refused :
    Memory.wf 2048 [(2, 1#8), (1, 1#8)] = false ∧ Memory.wf 2048 [(1, 1#8), (1, 2#8)] = false ∧
    Memory.wf 2048 [(2048, 1#8)] = false ∧ Memory.wf 2048 [(1, 0#8)] = false ∧
    Memory.wf 2048 [(0, 1#8), (2047, 1#8)] = true := by decide

/-- A cell past the loaded banks. -/
theorem test_cartridge_and_bus_not_canonical_are_refused :
    (Cartridge.mk .one [(16384, 1#8)] none).wf = false ∧ (Cartridge.mk .two [(16384, 1#8)] none).wf = true ∧
    (Cartridge.mk .one [] (some [(8192, 1#8)])).wf = false ∧
    Bus.wf ⟨[(0, 0#8)], Cartridge.blank, []⟩ = false ∧ Bus.wf ⟨[], Cartridge.blank, []⟩ = true := by decide

/-! ## Decoding: the words of 30_encoding.md, opcode byte in binary, operand bytes 34 and 12 -/

theorem test_decode_loads : decodes
    [ ([0b10100001#8, 0x34#8], .ldaIzx 0x34#8), ([0b10100101#8, 0x34#8], .ldaZp 0x34#8),
      ([0b10101001#8, 0x34#8], .ldaImm 0x34#8), ([0b10101101#8, 0x34#8, 0x12#8], .ldaAbs 0x1234#16),
      ([0b10110001#8, 0x34#8], .ldaIzy 0x34#8), ([0b10110101#8, 0x34#8], .ldaZpx 0x34#8),
      ([0b10111001#8, 0x34#8, 0x12#8], .ldaAby 0x1234#16), ([0b10111101#8, 0x34#8, 0x12#8], .ldaAbx 0x1234#16),
      ([0b10100010#8, 0x34#8], .ldxImm 0x34#8), ([0b10100110#8, 0x34#8], .ldxZp 0x34#8),
      ([0b10101110#8, 0x34#8, 0x12#8], .ldxAbs 0x1234#16), ([0b10110110#8, 0x34#8], .ldxZpy 0x34#8),
      ([0b10111110#8, 0x34#8, 0x12#8], .ldxAby 0x1234#16), ([0b10100000#8, 0x34#8], .ldyImm 0x34#8),
      ([0b10100100#8, 0x34#8], .ldyZp 0x34#8), ([0b10101100#8, 0x34#8, 0x12#8], .ldyAbs 0x1234#16),
      ([0b10110100#8, 0x34#8], .ldyZpx 0x34#8),
      ([0b10111100#8, 0x34#8, 0x12#8], .ldyAbx 0x1234#16) ] = true := by decide

theorem test_decode_stores : decodes
    [ ([0b10000001#8, 0x34#8], .staIzx 0x34#8), ([0b10000101#8, 0x34#8], .staZp 0x34#8),
      ([0b10001101#8, 0x34#8, 0x12#8], .staAbs 0x1234#16), ([0b10010001#8, 0x34#8], .staIzy 0x34#8),
      ([0b10010101#8, 0x34#8], .staZpx 0x34#8), ([0b10011001#8, 0x34#8, 0x12#8], .staAby 0x1234#16),
      ([0b10011101#8, 0x34#8, 0x12#8], .staAbx 0x1234#16), ([0b10000110#8, 0x34#8], .stxZp 0x34#8),
      ([0b10001110#8, 0x34#8, 0x12#8], .stxAbs 0x1234#16), ([0b10010110#8, 0x34#8], .stxZpy 0x34#8),
      ([0b10000100#8, 0x34#8], .styZp 0x34#8), ([0b10001100#8, 0x34#8, 0x12#8], .styAbs 0x1234#16),
      ([0b10010100#8, 0x34#8], .styZpx 0x34#8) ] = true := by decide

theorem test_decode_transfers : decodes
    [ ([0b10101010#8], .tax), ([0b10101000#8], .tay), ([0b10001010#8], .txa), ([0b10011000#8], .tya),
      ([0b10111010#8], .tsx), ([0b10011010#8], .txs) ] = true := by decide

theorem test_decode_add_and_subtract : decodes
    [ ([0b01100001#8, 0x34#8], .adcIzx 0x34#8), ([0b01100101#8, 0x34#8], .adcZp 0x34#8),
      ([0b01101001#8, 0x34#8], .adcImm 0x34#8), ([0b01101101#8, 0x34#8, 0x12#8], .adcAbs 0x1234#16),
      ([0b01110001#8, 0x34#8], .adcIzy 0x34#8), ([0b01110101#8, 0x34#8], .adcZpx 0x34#8),
      ([0b01111001#8, 0x34#8, 0x12#8], .adcAby 0x1234#16), ([0b01111101#8, 0x34#8, 0x12#8], .adcAbx 0x1234#16),
      ([0b11100001#8, 0x34#8], .sbcIzx 0x34#8), ([0b11100101#8, 0x34#8], .sbcZp 0x34#8),
      ([0b11101001#8, 0x34#8], .sbcImm 0x34#8), ([0b11101101#8, 0x34#8, 0x12#8], .sbcAbs 0x1234#16),
      ([0b11110001#8, 0x34#8], .sbcIzy 0x34#8), ([0b11110101#8, 0x34#8], .sbcZpx 0x34#8),
      ([0b11111001#8, 0x34#8, 0x12#8], .sbcAby 0x1234#16),
      ([0b11111101#8, 0x34#8, 0x12#8], .sbcAbx 0x1234#16) ] = true := by decide

theorem test_decode_logic : decodes
    [ ([0b00100001#8, 0x34#8], .andIzx 0x34#8), ([0b00100101#8, 0x34#8], .andZp 0x34#8),
      ([0b00101001#8, 0x34#8], .andImm 0x34#8), ([0b00101101#8, 0x34#8, 0x12#8], .andAbs 0x1234#16),
      ([0b00110001#8, 0x34#8], .andIzy 0x34#8), ([0b00110101#8, 0x34#8], .andZpx 0x34#8),
      ([0b00111001#8, 0x34#8, 0x12#8], .andAby 0x1234#16), ([0b00111101#8, 0x34#8, 0x12#8], .andAbx 0x1234#16),
      ([0b00000001#8, 0x34#8], .oraIzx 0x34#8), ([0b00000101#8, 0x34#8], .oraZp 0x34#8),
      ([0b00001001#8, 0x34#8], .oraImm 0x34#8), ([0b00001101#8, 0x34#8, 0x12#8], .oraAbs 0x1234#16),
      ([0b00010001#8, 0x34#8], .oraIzy 0x34#8), ([0b00010101#8, 0x34#8], .oraZpx 0x34#8),
      ([0b00011001#8, 0x34#8, 0x12#8], .oraAby 0x1234#16), ([0b00011101#8, 0x34#8, 0x12#8], .oraAbx 0x1234#16),
      ([0b01000001#8, 0x34#8], .eorIzx 0x34#8), ([0b01000101#8, 0x34#8], .eorZp 0x34#8),
      ([0b01001001#8, 0x34#8], .eorImm 0x34#8), ([0b01001101#8, 0x34#8, 0x12#8], .eorAbs 0x1234#16),
      ([0b01010001#8, 0x34#8], .eorIzy 0x34#8), ([0b01010101#8, 0x34#8], .eorZpx 0x34#8),
      ([0b01011001#8, 0x34#8, 0x12#8], .eorAby 0x1234#16),
      ([0b01011101#8, 0x34#8, 0x12#8], .eorAbx 0x1234#16) ] = true := by decide

theorem test_decode_compare_and_bit : decodes
    [ ([0b11000001#8, 0x34#8], .cmpIzx 0x34#8), ([0b11000101#8, 0x34#8], .cmpZp 0x34#8),
      ([0b11001001#8, 0x34#8], .cmpImm 0x34#8), ([0b11001101#8, 0x34#8, 0x12#8], .cmpAbs 0x1234#16),
      ([0b11010001#8, 0x34#8], .cmpIzy 0x34#8), ([0b11010101#8, 0x34#8], .cmpZpx 0x34#8),
      ([0b11011001#8, 0x34#8, 0x12#8], .cmpAby 0x1234#16), ([0b11011101#8, 0x34#8, 0x12#8], .cmpAbx 0x1234#16),
      ([0b11100000#8, 0x34#8], .cpxImm 0x34#8), ([0b11100100#8, 0x34#8], .cpxZp 0x34#8),
      ([0b11101100#8, 0x34#8, 0x12#8], .cpxAbs 0x1234#16), ([0b11000000#8, 0x34#8], .cpyImm 0x34#8),
      ([0b11000100#8, 0x34#8], .cpyZp 0x34#8), ([0b11001100#8, 0x34#8, 0x12#8], .cpyAbs 0x1234#16),
      ([0b00100100#8, 0x34#8], .bitZp 0x34#8),
      ([0b00101100#8, 0x34#8, 0x12#8], .bitAbs 0x1234#16) ] = true := by decide

theorem test_decode_increment_and_decrement : decodes
    [ ([0b11100110#8, 0x34#8], .incZp 0x34#8), ([0b11101110#8, 0x34#8, 0x12#8], .incAbs 0x1234#16),
      ([0b11110110#8, 0x34#8], .incZpx 0x34#8), ([0b11111110#8, 0x34#8, 0x12#8], .incAbx 0x1234#16),
      ([0b11000110#8, 0x34#8], .decZp 0x34#8), ([0b11001110#8, 0x34#8, 0x12#8], .decAbs 0x1234#16),
      ([0b11010110#8, 0x34#8], .decZpx 0x34#8), ([0b11011110#8, 0x34#8, 0x12#8], .decAbx 0x1234#16),
      ([0b11101000#8], .inx), ([0b11001000#8], .iny), ([0b11001010#8], .dex),
      ([0b10001000#8], .dey) ] = true := by decide

theorem test_decode_shifts : decodes
    [ ([0b00000110#8, 0x34#8], .aslZp 0x34#8), ([0b00001010#8], .aslAcc),
      ([0b00001110#8, 0x34#8, 0x12#8], .aslAbs 0x1234#16), ([0b00010110#8, 0x34#8], .aslZpx 0x34#8),
      ([0b00011110#8, 0x34#8, 0x12#8], .aslAbx 0x1234#16), ([0b01000110#8, 0x34#8], .lsrZp 0x34#8),
      ([0b01001010#8], .lsrAcc), ([0b01001110#8, 0x34#8, 0x12#8], .lsrAbs 0x1234#16),
      ([0b01010110#8, 0x34#8], .lsrZpx 0x34#8), ([0b01011110#8, 0x34#8, 0x12#8], .lsrAbx 0x1234#16),
      ([0b00100110#8, 0x34#8], .rolZp 0x34#8), ([0b00101010#8], .rolAcc),
      ([0b00101110#8, 0x34#8, 0x12#8], .rolAbs 0x1234#16), ([0b00110110#8, 0x34#8], .rolZpx 0x34#8),
      ([0b00111110#8, 0x34#8, 0x12#8], .rolAbx 0x1234#16), ([0b01100110#8, 0x34#8], .rorZp 0x34#8),
      ([0b01101010#8], .rorAcc), ([0b01101110#8, 0x34#8, 0x12#8], .rorAbs 0x1234#16),
      ([0b01110110#8, 0x34#8], .rorZpx 0x34#8),
      ([0b01111110#8, 0x34#8, 0x12#8], .rorAbx 0x1234#16) ] = true := by decide

theorem test_decode_jumps : decodes
    [ ([0b01001100#8, 0x34#8, 0x12#8], .jmpAbs 0x1234#16), ([0b01101100#8, 0x34#8, 0x12#8], .jmpInd 0x1234#16),
      ([0b00100000#8, 0x34#8, 0x12#8], .jsr 0x1234#16), ([0b01100000#8], .rts) ] = true := by decide

theorem test_decode_branches : decodes
    [ ([0b10010000#8, 0x34#8], .bcc 0x34#8), ([0b10110000#8, 0x34#8], .bcs 0x34#8),
      ([0b11110000#8, 0x34#8], .beq 0x34#8), ([0b00110000#8, 0x34#8], .bmi 0x34#8),
      ([0b11010000#8, 0x34#8], .bne 0x34#8), ([0b00010000#8, 0x34#8], .bpl 0x34#8),
      ([0b01010000#8, 0x34#8], .bvc 0x34#8), ([0b01110000#8, 0x34#8], .bvs 0x34#8) ] = true := by decide

theorem test_decode_stack : decodes
    [ ([0b01001000#8], .pha), ([0b00001000#8], .php), ([0b01101000#8], .pla),
      ([0b00101000#8], .plp) ] = true := by decide

theorem test_decode_flags : decodes
    [ ([0b00011000#8], .clc), ([0b00111000#8], .sec), ([0b01011000#8], .cli), ([0b01111000#8], .sei),
      ([0b11011000#8], .cld), ([0b11111000#8], .sed), ([0b10111000#8], .clv) ] = true := by decide

theorem test_decode_system : decodes
    [ ([0b11101010#8], .nop), ([0b00000000#8], .brk), ([0b01000000#8], .rti) ] = true := by decide

/-- R90: each of the 105 bytes is refused by name. -/
theorem test_decode_refuses_the_unassigned_bytes :
    unassignedBytes.all (fun b => match decode [b] with | .error e => e == .illegalOpcode b | .ok _ => false) = true := by
  decide

/-- An instruction cut short is refused by name. -/
theorem test_decode_refuses_a_truncated_instruction :
    (match decode [0xAD#8, 0x34#8] with | .error e => e == .truncated | .ok _ => false) = true := by decide

/-- Words as spec/opcode_table.json numbers them: byte 0 lowest, the operand bytes above it. -/
theorem test_decodeTableWord_reads_the_first_byte_lowest :
    decodeTableWord 24 0x1234AD = some (.ldaAbs 0x1234#16) ∧ decodeTableWord 8 0xEA = some .nop ∧
    decodeTableWord 8 0x1234AD = some (.ldaAbs 0x0000#16) ∧ decodeTableWord 8 0x02 = none := by decide

/-- The lookups of 95_test_vectors.md section 2.5. -/
theorem test_lookup_rows :
    [0x69#8, 0xBD#8, 0xB1#8, 0x9D#8, 0x91#8, 0x96#8, 0x90#8, 0x6C#8, 0x20#8, 0x0A#8, 0xEA#8, 0x00#8].map
        OpcodeTable.mos6502.lookup =
      [some ⟨0x69#8, .adc, .imm, 2, 2, .none⟩, some ⟨0xBD#8, .lda, .abx, 3, 4, .pageCross⟩,
        some ⟨0xB1#8, .lda, .izy, 2, 5, .pageCross⟩, some ⟨0x9D#8, .sta, .abx, 3, 5, .none⟩,
        some ⟨0x91#8, .sta, .izy, 2, 6, .none⟩, some ⟨0x96#8, .stx, .zpy, 2, 4, .none⟩,
        some ⟨0x90#8, .bcc, .rel, 2, 2, .branch⟩, some ⟨0x6C#8, .jmp, .ind, 3, 5, .none⟩,
        some ⟨0x20#8, .jsr, .abs, 3, 6, .none⟩, some ⟨0x0A#8, .asl, .acc, 1, 2, .none⟩,
        some ⟨0xEA#8, .nop, .imp, 1, 2, .none⟩, some ⟨0x00#8, .brk, .imp, 1, 7, .none⟩] ∧
    [0x02#8, 0x1A#8, 0x80#8, 0xFF#8].map OpcodeTable.mos6502.lookup = [none, none, none, none] := by decide

/-! ## Bus, construction, reset, status byte -/

-- VH1, VH2, VH3
theorem test_ram_mirrors :
    (put State.reset 0x0000#16 [0x11#8]).bus.read 0 .host 0x1800#16 = 0x11#8 ∧
    (put State.reset 0x1FFF#16 [0x22#8]).bus.read 0 .host 0x07FF#16 = 0x22#8 ∧
    (put State.reset 0x07FF#16 [0x33#8]).bus.read 0 .host 0x0800#16 = 0x00#8 := by decide

-- VH5, VH6, VH7, VH12, VH13
theorem test_open_bus_and_rom_writes :
    State.reset.bus.read 0 .host 0x2000#16 = 0x00#8 ∧ State.reset.bus.read 0 .host 0x7FFF#16 = 0x00#8 ∧
    (State.reset.bus.write 0 0x6000#16 0x44#8).toOption = some State.reset.bus ∧
    (State.reset.bus.write 0 0x7FFF#16 0x55#8).toOption = some State.reset.bus ∧
    (State.reset.bus.write 0 0x8000#16 0x01#8).toOption = none := by decide

-- VH8
theorem test_one_bank_is_mirrored :
    [0x8000#16, 0xBFFF#16, 0xC000#16, 0xFFFF#16].map
      (Cartridge.readPrg ⟨.one, [(0, 0xA1#8), (0x3FFF, 0xA2#8)], none⟩) = [0xA1#8, 0xA2#8, 0xA1#8, 0xA2#8] := by decide

-- VH9
theorem test_two_banks_are_not_mirrored :
    [0x8000#16, 0xBFFF#16, 0xC000#16, 0xFFFF#16].map
      (twoBanks [(0, 0xB1#8), (0x3FFF, 0xB2#8), (0x4000, 0xB3#8), (0x7FFF, 0xB4#8)]).readPrg =
      [0xB1#8, 0xB2#8, 0xB3#8, 0xB4#8] := by decide

-- VR1
theorem test_reset_with_one_bank :
    (State.powerOn ⟨.one, [(0x3FFD, 0x80#8)], none⟩ [] []).pc = 0x8000#16 ∧
    (State.powerOn ⟨.one, [(0x3FFD, 0x80#8)], none⟩ [] []).flags.pack = 0x34#8 ∧
    (State.powerOn ⟨.one, [(0x3FFD, 0x80#8)], none⟩ [] []).sp = 0xFF#8 := by decide

-- VR2
theorem test_reset_with_two_banks :
    (State.powerOn (twoBanks [(0x3FFC, 0xFF#8), (0x3FFD, 0xFF#8), (0x7FFC, 0x34#8), (0x7FFD, 0xC2#8)]) [] []).pc =
      0xC234#16 := by decide

-- VP4, VP5
theorem test_pack :
    (Flags.mk true false false false true false true).pack = 0xB1#8 ∧
    (Flags.mk false true false true true true false).pack = 0x7A#8 := by decide

-- VP8, VP10
theorem test_unpack :
    Flags.reset.unpack 0xCF#8 = ⟨true, true, true, true, true, true, true⟩ ∧
    (Flags.reset.unpack 0x81#8).pack = 0xB1#8 := by decide

-- VG7
theorem test_not_implemented_changes_nothing :
    runStep adcOnly (start 0x8000#16 [0xA9#8, 0x01#8] []) =
      .fault (.notImplemented 0xA9#8 .lda 0x8000#16 (start 0x8000#16 [0xA9#8, 0x01#8] [])) := by decide

/-- Entries outside R89 run their operation through their operand (R105, R121): STA #n writes the byte after the opcode,
JMP w,X goes to the sum, INC A counts A, LDA (w) reads through the pointer, LDA with no operand has no address. -/
theorem test_entries_outside_the_default_table :
    (match runStep otherParams { start 0x0200#16 [0x02#8, 0x55#8] [] with a := 0xAA#8 } with
      | .ok n t => n == 5 && t.pc == 0x0202#16 && t.bus.peek 0x0201#16 == 0xAA#8 | _ => false) = true ∧
    (match runStep otherParams { start 0x0200#16 [0x03#8, 0xFF#8, 0x12#8] [] with x := 0x01#8 } with
      | .ok n t => n == 5 && t.pc == 0x1300#16 | _ => false) = true ∧
    (match runStep otherParams { start 0x0200#16 [0x04#8] [] with a := 0x7F#8 } with
      | .ok n t => n == 2 && t.a == 0x80#8 && t.flags.n | _ => false) = true ∧
    (match runStep otherParams (start 0x0200#16 [0x07#8, 0x10#8, 0x00#8]
        [(0x0010#16, [0x00#8, 0x03#8]), (0x0300#16, [0x42#8])]) with
      | .ok n t => n == 6 && t.a == 0x42#8 | _ => false) = true ∧
    runStep otherParams (start 0x0200#16 [0x0B#8] []) = .refused (.noAddress .lda .imp) := by decide

/-- JSR in a two-byte mode pushes the address of its last byte, and its transactions say so (R181, log 15). -/
theorem test_jsr_outside_the_default_table :
    (match runStep otherParams (start 0x0200#16 [0x0C#8, 0x10#8] []) with
      | .ok _ t => t.pc == 0x0010#16 && t.bus.peek 0x01FF#16 == 0x02#8 && t.bus.peek 0x01FE#16 == 0x01#8
      | _ => false) = true ∧
    runTransactions otherParams (start 0x0200#16 [0x0C#8, 0x10#8] []) =
      [.read 0x0200#16 0x0C#8, .read 0x0201#16 0x10#8, .write 0x01FF#16 0x02#8, .write 0x01FE#16 0x01#8] := by decide

/-- BRK in a two-byte mode pushes the advanced PC plus 1, and its transactions say so (R212's pseudocode, log 15). -/
theorem test_brk_outside_the_default_table :
    (match runStep otherParams (start 0x0200#16 [0x0F#8] []) with
      | .ok _ t => t.bus.peek 0x01FF#16 == 0x02#8 && t.bus.peek 0x01FE#16 == 0x03#8
      | _ => false) = true ∧
    (runTransactions otherParams (start 0x0200#16 [0x0F#8] [])).take 3 =
      [.read 0x0200#16 0x0F#8, .write 0x01FF#16 0x02#8, .write 0x01FE#16 0x03#8] := by decide

/-- An instruction put in place by `withFetchWord` is what the next step after reset runs. -/
theorem test_withFetchWord_runs_the_instruction :
    completes 2 (fun t => t.a == 0x05#8 && t.pc == 0x0002#16) (State.reset.withFetchWord 16 0x05A9) = true := by decide

/-! ## One step each (spec/95_test_vectors.md sections 2.6 to 2.12) -/

-- VB1
theorem test_ldaImm_sets_n :
    completes 2 (fun t => t.a == 0x80#8 && t.pc == 0x8002#16 && t.flags.n)
      (start 0x8000#16 [0xA9#8, 0x80#8] []) = true := by decide

-- VA21
theorem test_ldaZp_straddles_the_top_of_memory :
    completes 3 (fun t => t.a == 0x99#8 && t.pc == 0x0001#16 && t.flags.n)
      (start 0xFFFF#16 [] [(0x0000#16, [0x10#8]), (0x0010#16, [0x99#8]),
        (0xFFFE#16, [0x00#8, 0xA5#8])]) = true := by decide

theorem test_ldaZp_straddles_the_top_of_memory_transactions :
    stepTransactions (start 0xFFFF#16 [] [(0x0000#16, [0x10#8]), (0x0010#16, [0x99#8]),
        (0xFFFE#16, [0x00#8, 0xA5#8])]) =
      [.read 0xFFFF#16 0xA5#8, .read 0x0000#16 0x10#8, .read 0x0010#16 0x99#8] := by decide

-- VA4
theorem test_ldaZpx_wraps_in_the_zero_page :
    completes 4 (fun t => t.a == 0x42#8 && t.pc == 0x8002#16)
      { start 0x8000#16 [0xB5#8, 0xFF#8] [(0x0004#16, [0x42#8]),
        (0x0104#16, [0x99#8])] with x := 0x05#8 } = true := by decide

-- VA17
theorem test_ldaAbs_reads_open_bus_as_zero :
    completes 4 (fun t => t.a == 0x00#8 && t.pc == 0x8003#16 && t.flags.z)
      { start 0x8000#16 [0xAD#8, 0x00#8, 0x40#8] [] with a := 0x55#8 } = true := by decide

-- VA7
theorem test_ldaAbx_pays_for_a_page_crossing :
    completes 5 (fun t => t.a == 0x11#8 && t.pc == 0x8003#16)
      { start 0x8000#16 [0xBD#8, 0xF0#8, 0x12#8] [(0x0310#16, [0x11#8])] with x := 0x20#8 } = true := by decide

-- VA9
theorem test_ldaAbx_wraps_past_the_top :
    completes 5 (fun t => t.a == 0x44#8 && t.pc == 0x8003#16)
      { start 0x8000#16 [0xBD#8, 0xF0#8, 0xFF#8] [(0x0010#16, [0x44#8])] with x := 0x20#8 } = true := by decide

-- VA10
theorem test_ldaAby_pays_for_a_page_crossing :
    completes 5 (fun t => t.a == 0x66#8 && t.pc == 0x8003#16)
      { start 0x8000#16 [0xB9#8, 0xFF#8, 0x02#8] [(0x0300#16, [0x66#8])] with y := 0x01#8 } = true := by decide

-- VA11
theorem test_ldaIzx_wraps_its_pointer :
    completes 6 (fun t => t.a == 0xC3#8 && t.pc == 0x8002#16 && t.flags.n)
      { start 0x8000#16 [0xA1#8, 0xFE#8] [(0x00FF#16, [0x34#8]), (0x0000#16, [0x02#8]), (0x0100#16, [0x07#8]),
        (0x0234#16, [0xC3#8])] with x := 0x01#8 } = true := by decide

theorem test_ldaIzx_wraps_its_pointer_transactions :
    stepTransactions { start 0x8000#16 [0xA1#8, 0xFE#8] [(0x00FF#16, [0x34#8]), (0x0000#16, [0x02#8]),
        (0x0100#16, [0x07#8]), (0x0234#16, [0xC3#8])] with x := 0x01#8 } =
      [.read 0x8000#16 0xA1#8, .read 0x8001#16 0xFE#8, .read 0x00FF#16 0x34#8, .read 0x0000#16 0x02#8, .read 0x0234#16 0xC3#8] := by decide

-- VA13
theorem test_ldaIzy_pays_for_a_page_crossing :
    completes 6 (fun t => t.a == 0x5B#8 && t.pc == 0x8002#16)
      { start 0x8000#16 [0xB1#8, 0x10#8] [(0x0010#16, [0xF0#8, 0x02#8]),
        (0x0310#16, [0x5B#8])] with y := 0x20#8 } = true := by decide

-- VA15
theorem test_ldaIzy_wraps_its_pointer :
    completes 5 (fun t => t.a == 0x21#8 && t.pc == 0x8002#16)
      { start 0x8000#16 [0xB1#8, 0xFF#8] [(0x00FF#16, [0x00#8]), (0x0000#16, [0x03#8]),
        (0x0300#16, [0x21#8])] with y := 0x00#8 } = true := by decide

-- VB2
theorem test_ldxImm_sets_z :
    completes 2 (fun t => t.x == 0x00#8 && t.pc == 0x8002#16 && t.flags.z)
      { start 0x8000#16 [0xA2#8, 0x00#8] [] with x := 0x09#8 } = true := by decide

-- VA5
theorem test_ldxZpy_wraps_in_the_zero_page :
    completes 4 (fun t => t.x == 0x33#8 && t.pc == 0x8002#16)
      { start 0x8000#16 [0xB6#8, 0xF0#8] [(0x0010#16, [0x33#8]),
        (0x0110#16, [0x99#8])] with y := 0x20#8 } = true := by decide

-- VB3
theorem test_ldyAbx_stays_in_the_page :
    completes 4 (fun t => t.y == 0x01#8 && t.pc == 0x8003#16)
      { start 0x8000#16 [0xBC#8, 0x00#8, 0x02#8] [(0x02FF#16, [0x01#8])] with x := 0xFF#8 } = true := by decide

-- VB4
theorem test_staAbx_never_pays :
    completes 5 (fun t => t.pc == 0x8003#16 && t.bus.peek 0x02FF#16 == 0xAA#8)
      { start 0x8000#16 [0x9D#8, 0x00#8, 0x02#8] [] with a := 0xAA#8, x := 0xFF#8 } = true := by decide

-- VB5
theorem test_staIzy_never_pays :
    completes 6 (fun t => t.pc == 0x8002#16 && t.bus.peek 0x0300#16 == 0xBB#8)
      { start 0x8000#16 [0x91#8, 0x10#8] [(0x0010#16, [0x01#8, 0x02#8])] with a := 0xBB#8, y := 0xFF#8 } = true := by decide

theorem test_staIzy_never_pays_transactions :
    stepTransactions { start 0x8000#16 [0x91#8, 0x10#8] [(0x0010#16, [0x01#8, 0x02#8])] with a := 0xBB#8, y := 0xFF#8 } =
      [.read 0x8000#16 0x91#8, .read 0x8001#16 0x10#8, .read 0x0010#16 0x01#8, .read 0x0011#16 0x02#8, .write 0x0300#16 0xBB#8] := by decide

-- VB9
theorem test_staAbx_wraps_into_ram :
    completes 5 (fun t => t.pc == 0x8003#16 && t.bus.peek 0x0000#16 == 0x01#8)
      { start 0x8000#16 [0x9D#8, 0xFF#8, 0xFF#8] [] with a := 0x01#8, x := 0x01#8 } = true := by decide

-- VA18
theorem test_staAbs_drops_a_write_to_open_bus :
    completes 4 (fun t => t.pc == 0x8003#16)
      { start 0x8000#16 [0x8D#8, 0x00#8, 0x40#8] [] with a := 0x55#8 } = true := by decide

-- VB8
theorem test_staAbs_faults_on_rom :
    romFault 0x8000#16 0x00#8 (fun t => t.pc == 0x8003#16)
      { start 0x8000#16 [0x8D#8, 0x00#8, 0x80#8] [] with a := 0x00#8, flags := { Flags.reset with z := false } } = true := by decide

-- VG6
theorem test_staIzy_faults_on_rom :
    romFault 0x8000#16 0x5A#8 (fun t => t.pc == 0x8002#16)
      { start 0x8000#16 [0x91#8, 0x10#8] [(0x0010#16, [0xFF#8, 0x7F#8])] with a := 0x5A#8, y := 0x01#8 } = true := by decide

-- VB6
theorem test_stxZpy_wraps_in_the_zero_page :
    completes 4 (fun t => t.pc == 0x8002#16 && t.bus.peek 0x0001#16 == 0xCC#8)
      { start 0x8000#16 [0x96#8, 0x10#8] [] with x := 0xCC#8, y := 0xF1#8 } = true := by decide

-- VB7
theorem test_styAbs_writes_through_a_mirror :
    completes 4 (fun t => t.pc == 0x8003#16 && t.bus.peek 0x0001#16 == 0xDD#8)
      { start 0x8000#16 [0x8C#8, 0x01#8, 0x08#8] [] with y := 0xDD#8 } = true := by decide

-- VB10
theorem test_tax :
    completes 2 (fun t => t.x == 0x00#8 && t.pc == 0x8001#16 && t.flags.z)
      { start 0x8000#16 [0xAA#8] [] with a := 0x00#8, x := 0x05#8 } = true := by decide

-- VB11
theorem test_tay :
    completes 2 (fun t => t.y == 0x90#8 && t.pc == 0x8001#16 && t.flags.n)
      { start 0x8000#16 [0xA8#8] [] with a := 0x90#8 } = true := by decide

-- VB12
theorem test_txa_clears_n :
    completes 2 (fun t => t.a == 0x01#8 && t.pc == 0x8001#16 && !t.flags.n)
      { start 0x8000#16 [0x8A#8] [] with x := 0x01#8, a := 0x80#8, flags := { Flags.reset with n := true } } = true := by decide

-- VB13
theorem test_tya :
    completes 2 (fun t => t.a == 0xFF#8 && t.pc == 0x8001#16 && t.flags.n)
      { start 0x8000#16 [0x98#8] [] with y := 0xFF#8 } = true := by decide

-- VB14
theorem test_tsx_writes_n :
    completes 2 (fun t => t.x == 0xFF#8 && t.pc == 0x8001#16 && t.flags.n)
      (start 0x8000#16 [0xBA#8] []) = true := by decide

-- VB15
theorem test_txs_writes_no_flag :
    completes 2 (fun t => t.sp == 0x00#8 && t.pc == 0x8001#16)
      { start 0x8000#16 [0x9A#8] [] with x := 0x00#8, flags := { Flags.reset with z := false, n := true } } = true := by decide

-- VC4
theorem test_adc_sets_v_and_c :
    completes 2 (fun t => t.a == 0x60#8 && t.pc == 0x8002#16 && !t.flags.n && t.flags.v && !t.flags.z && t.flags.c)
      { start 0x8000#16 [0x69#8, 0x90#8] [] with a := 0xD0#8, flags := { Flags.reset with c := false, d := false } } = true := by decide

-- VC8
theorem test_adc_ignores_d :
    completes 2 (fun t => t.a == 0x0A#8 && t.pc == 0x8002#16 && !t.flags.n && !t.flags.v && !t.flags.z &&
        !t.flags.c)
      { start 0x8000#16 [0x69#8, 0x01#8] [] with a := 0x09#8, flags := { Flags.reset with c := false, d := true } } = true := by decide

-- VC13
theorem test_sbc_sets_v :
    completes 2 (fun t => t.a == 0x7F#8 && t.pc == 0x8002#16 && !t.flags.n && t.flags.v && !t.flags.z && t.flags.c)
      { start 0x8000#16 [0xE9#8, 0x01#8] [] with a := 0x80#8, flags := { Flags.reset with c := true, d := false } } = true := by decide

-- VC14
theorem test_sbc_borrows :
    completes 2 (fun t => t.a == 0xFF#8 && t.pc == 0x8002#16 && t.flags.n && !t.flags.v && !t.flags.z && !t.flags.c)
      { start 0x8000#16 [0xE9#8, 0x05#8] [] with a := 0x05#8, flags := { Flags.reset with c := false, d := false } } = true := by decide

-- VC19
theorem test_andZp :
    completes 3 (fun t => t.a == 0x80#8 && t.pc == 0x8002#16 && t.flags.n)
      { start 0x8000#16 [0x25#8, 0x10#8] [(0x0010#16, [0x80#8])] with a := 0xFF#8 } = true := by decide

-- VC21
theorem test_oraIzx :
    completes 6 (fun t => t.a == 0x81#8 && t.pc == 0x8002#16 && t.flags.n)
      { start 0x8000#16 [0x01#8, 0x10#8] [(0x0010#16, [0x00#8, 0x02#8]),
        (0x0200#16, [0x80#8])] with a := 0x01#8, x := 0x00#8 } = true := by decide

-- VC23
theorem test_eorAby :
    completes 4 (fun t => t.a == 0xFF#8 && t.pc == 0x8003#16 && t.flags.n)
      { start 0x8000#16 [0x59#8, 0x00#8, 0x02#8] [(0x0201#16, [0xF0#8])] with a := 0x0F#8, y := 0x01#8 } = true := by decide

-- VC27
theorem test_cmp_is_unsigned :
    completes 2 (fun t => t.pc == 0x8002#16 && !t.flags.n && t.flags.v && !t.flags.z && t.flags.c)
      { start 0x8000#16 [0xC9#8, 0x01#8] [] with a := 0x80#8, flags := { Flags.reset with v := true } } = true := by decide

-- VC29
theorem test_cmp_leaves_v :
    completes 2 (fun t => t.pc == 0x8002#16 && t.flags.n && t.flags.v && !t.flags.z && !t.flags.c)
      { start 0x8000#16 [0xC9#8, 0x80#8] [] with a := 0x00#8, flags := { Flags.reset with v := true } } = true := by decide

-- VC30
theorem test_cpxZp :
    completes 3 (fun t => t.pc == 0x8002#16 && t.flags.n && !t.flags.z && !t.flags.c)
      { start 0x8000#16 [0xE4#8, 0x10#8] [(0x0010#16, [0x20#8])] with x := 0x10#8 } = true := by decide

-- VC31
theorem test_cpyImm :
    completes 2 (fun t => t.pc == 0x8002#16 && !t.flags.n && t.flags.z && t.flags.c)
      { start 0x8000#16 [0xC0#8, 0x04#8] [] with y := 0x04#8 } = true := by decide

-- VC32
theorem test_bitZp :
    completes 3 (fun t => t.pc == 0x8002#16 && t.flags.n && t.flags.v && t.flags.z)
      { start 0x8000#16 [0x24#8, 0x10#8] [(0x0010#16, [0xC0#8])] with a := 0x01#8 } = true := by decide

-- VC33
theorem test_bitAbs :
    completes 4 (fun t => t.pc == 0x8003#16 && !t.flags.n && !t.flags.v && !t.flags.z)
      { start 0x8000#16 [0x2C#8, 0x00#8, 0x02#8] [(0x0200#16, [0x3F#8])] with a := 0xFF#8, flags := { Flags.reset with n := true, v := true } } = true := by decide

-- VC35
theorem test_incZp_leaves_c :
    completes 5 (fun t => t.pc == 0x8002#16 && !t.flags.n && t.flags.z && t.flags.c &&
        t.bus.peek 0x0010#16 == 0x00#8)
      { start 0x8000#16 [0xE6#8, 0x10#8] [(0x0010#16, [0xFF#8])] with flags := { Flags.reset with c := true } } = true := by decide

-- VC36
theorem test_incAbx_always_takes_seven :
    completes 7 (fun t => t.pc == 0x8003#16 && t.flags.n && !t.flags.v && !t.flags.z &&
        t.bus.peek 0x02FF#16 == 0x80#8)
      { start 0x8000#16 [0xFE#8, 0x00#8, 0x02#8] [(0x02FF#16, [0x7F#8])] with x := 0xFF#8 } = true := by decide

-- VC39
theorem test_incAbs_faults_on_rom_and_leaves_the_flags :
    romFault 0x8000#16 0xEF#8 (fun t => t.pc == 0x8003#16)
      { start 0x8000#16 [0xEE#8, 0x00#8, 0x80#8] [] with flags := { Flags.reset with z := true } } = true := by decide

-- VC40
theorem test_incAbs_drops_a_write_to_open_bus :
    completes 6 (fun t => t.pc == 0x8003#16 && !t.flags.n && !t.flags.z)
      { start 0x8000#16 [0xEE#8, 0x00#8, 0x40#8] [] with flags := { Flags.reset with z := true } } = true := by decide

-- VC37
theorem test_decZpx_wraps :
    completes 6 (fun t => t.pc == 0x8002#16 && t.flags.n && !t.flags.z && t.bus.peek 0x0008#16 == 0xFF#8)
      { start 0x8000#16 [0xD6#8, 0x10#8] [(0x0008#16, [0x00#8])] with x := 0xF8#8 } = true := by decide

-- VC38
theorem test_decAbs :
    completes 6 (fun t => t.pc == 0x8003#16 && !t.flags.n && t.flags.z && t.bus.peek 0x0200#16 == 0x00#8)
      (start 0x8000#16 [0xCE#8, 0x00#8, 0x02#8] [(0x0200#16, [0x01#8])]) = true := by decide

-- VG5
theorem test_decAbx_faults_on_the_mirror :
    romFault 0xC001#16 0xFF#8 (fun t => t.pc == 0x8003#16)
      { start 0x8000#16 [0xDE#8, 0x00#8, 0xC0#8] [] with x := 0x01#8 } = true := by decide

theorem test_decAbx_faults_on_the_mirror_transactions :
    stepTransactions { start 0x8000#16 [0xDE#8, 0x00#8, 0xC0#8] [] with x := 0x01#8 } =
      [.read 0x8000#16 0xDE#8, .read 0x8001#16 0x00#8, .read 0x8002#16 0xC0#8, .read 0xC001#16 0x00#8, .write 0xC001#16 0xFF#8] := by decide

-- VC41
theorem test_inx_wraps :
    completes 2 (fun t => t.x == 0x00#8 && t.pc == 0x8001#16 && !t.flags.n && t.flags.z && !t.flags.c)
      { start 0x8000#16 [0xE8#8] [] with x := 0xFF#8, flags := { Flags.reset with c := false } } = true := by decide

-- VC42
theorem test_iny :
    completes 2 (fun t => t.y == 0x80#8 && t.pc == 0x8001#16 && t.flags.n && !t.flags.v && !t.flags.z)
      { start 0x8000#16 [0xC8#8] [] with y := 0x7F#8 } = true := by decide

-- VC43
theorem test_dex_wraps :
    completes 2 (fun t => t.x == 0xFF#8 && t.pc == 0x8001#16 && t.flags.n && !t.flags.z)
      { start 0x8000#16 [0xCA#8] [] with x := 0x00#8 } = true := by decide

-- VC44
theorem test_dey :
    completes 2 (fun t => t.y == 0x00#8 && t.pc == 0x8001#16 && !t.flags.n && t.flags.z)
      { start 0x8000#16 [0x88#8] [] with y := 0x01#8 } = true := by decide

-- VD3
theorem test_aslAcc_shifts_no_carry_in :
    completes 2 (fun t => t.a == 0x80#8 && t.pc == 0x8001#16 && t.flags.n && !t.flags.z && !t.flags.c)
      { start 0x8000#16 [0x0A#8] [] with a := 0x40#8, flags := { Flags.reset with c := true } } = true := by decide

-- VD10
theorem test_aslZp :
    completes 5 (fun t => t.pc == 0x8002#16 && t.flags.n && !t.flags.z && t.flags.c &&
        t.bus.peek 0x0010#16 == 0x80#8)
      (start 0x8000#16 [0x06#8, 0x10#8] [(0x0010#16, [0xC0#8])]) = true := by decide

-- VD14
theorem test_aslAbs_faults_on_rom_and_leaves_the_flags :
    romFault 0x8000#16 0x1C#8 (fun t => t.pc == 0x8003#16)
      { start 0x8000#16 [0x0E#8, 0x00#8, 0x80#8] [] with flags := { Flags.reset with c := true, z := true } } = true := by decide

-- VD5
theorem test_lsrAcc :
    completes 2 (fun t => t.a == 0x7F#8 && t.pc == 0x8001#16 && !t.flags.n && !t.flags.z && t.flags.c)
      { start 0x8000#16 [0x4A#8] [] with a := 0xFF#8 } = true := by decide

-- VD11
theorem test_lsrZpx :
    completes 6 (fun t => t.pc == 0x8002#16 && !t.flags.n && !t.flags.z && !t.flags.c &&
        t.bus.peek 0x0011#16 == 0x01#8)
      { start 0x8000#16 [0x56#8, 0x10#8] [(0x0011#16, [0x02#8])] with x := 0x01#8 } = true := by decide

-- VD6
theorem test_rolAcc :
    completes 2 (fun t => t.a == 0x01#8 && t.pc == 0x8001#16 && !t.flags.n && !t.flags.z && t.flags.c)
      { start 0x8000#16 [0x2A#8] [] with a := 0x80#8, flags := { Flags.reset with c := true } } = true := by decide

-- VD12
theorem test_rolAbs :
    completes 6 (fun t => t.pc == 0x8003#16 && t.flags.n && !t.flags.z && !t.flags.c &&
        t.bus.peek 0x0200#16 == 0xFF#8)
      { start 0x8000#16 [0x2E#8, 0x00#8, 0x02#8] [(0x0200#16, [0x7F#8])] with flags := { Flags.reset with c := true } } = true := by decide

-- VD8
theorem test_rorAcc :
    completes 2 (fun t => t.a == 0x80#8 && t.pc == 0x8001#16 && t.flags.n && !t.flags.z && t.flags.c)
      { start 0x8000#16 [0x6A#8] [] with a := 0x01#8, flags := { Flags.reset with c := true } } = true := by decide

-- VD13
theorem test_rorAbx_always_takes_seven :
    completes 7 (fun t => t.pc == 0x8003#16 && t.flags.n && !t.flags.z && !t.flags.c &&
        t.bus.peek 0x0300#16 == 0x80#8)
      { start 0x8000#16 [0x7E#8, 0xFF#8, 0x02#8] [(0x0300#16, [0x00#8])] with x := 0x01#8, flags := { Flags.reset with c := true } } = true := by decide

theorem test_rorAbx_always_takes_seven_transactions :
    stepTransactions { start 0x8000#16 [0x7E#8, 0xFF#8, 0x02#8] [(0x0300#16, [0x00#8])] with x := 0x01#8, flags := { Flags.reset with c := true } } =
      [.read 0x8000#16 0x7E#8, .read 0x8001#16 0xFF#8, .read 0x8002#16 0x02#8, .read 0x0300#16 0x00#8, .write 0x0300#16 0x80#8] := by decide

-- VE1
theorem test_jmpAbs :
    completes 3 (fun t => t.pc == 0x9000#16)
      (start 0x8000#16 [0x4C#8, 0x00#8, 0x90#8] []) = true := by decide

-- VA16
theorem test_jmpInd_carries_into_the_next_page :
    completes 5 (fun t => t.pc == 0x9000#16)
      (start 0x8000#16 [0x6C#8, 0xFF#8, 0x02#8] [(0x02FF#16, [0x00#8]), (0x0300#16, [0x90#8]),
        (0x0200#16, [0x80#8])]) = true := by decide

theorem test_jmpInd_carries_into_the_next_page_transactions :
    stepTransactions (start 0x8000#16 [0x6C#8, 0xFF#8, 0x02#8] [(0x02FF#16, [0x00#8]), (0x0300#16, [0x90#8]),
        (0x0200#16, [0x80#8])]) =
      [.read 0x8000#16 0x6C#8, .read 0x8001#16 0xFF#8, .read 0x8002#16 0x02#8, .read 0x02FF#16 0x00#8, .read 0x0300#16 0x90#8] := by decide

-- VE5
theorem test_jsr_wraps_sp :
    completes 6 (fun t => t.sp == 0xFE#8 && t.pc == 0x9000#16 && t.bus.peek 0x0100#16 == 0x80#8 &&
        t.bus.peek 0x01FF#16 == 0x02#8)
      { start 0x8000#16 [0x20#8, 0x00#8, 0x90#8] [] with sp := 0x00#8 } = true := by decide

-- VE7
theorem test_rts_wraps_sp_and_pc :
    completes 6 (fun t => t.sp == 0x00#8 && t.pc == 0x0000#16)
      { start 0x8000#16 [0x60#8] [(0x01FF#16, [0xFF#8]),
        (0x0100#16, [0xFF#8])] with sp := 0xFE#8 } = true := by decide

theorem test_rts_wraps_sp_and_pc_transactions :
    stepTransactions { start 0x8000#16 [0x60#8] [(0x01FF#16, [0xFF#8]), (0x0100#16, [0xFF#8])] with sp := 0xFE#8 } =
      [.read 0x8000#16 0x60#8, .read 0x01FF#16 0xFF#8, .read 0x0100#16 0xFF#8] := by decide

-- VE8
theorem test_bcc_taken :
    completes 3 (fun t => t.pc == 0x8006#16)
      { start 0x8000#16 [0x90#8, 0x04#8] [] with flags := { Flags.reset with c := false } } = true := by decide

-- VE9
theorem test_bcc_not_taken :
    completes 2 (fun t => t.pc == 0x8002#16)
      { start 0x8000#16 [0x90#8, 0x04#8] [] with flags := { Flags.reset with c := true } } = true := by decide

-- VE10
theorem test_bcs_taken :
    completes 3 (fun t => t.pc == 0x8006#16)
      { start 0x8000#16 [0xB0#8, 0x04#8] [] with flags := { Flags.reset with c := true } } = true := by decide

-- VE26
theorem test_beq_taken_backward_across_a_page :
    completes 4 (fun t => t.pc == 0x80FF#16)
      { start 0x8100#16 [0xF0#8, 0xFD#8] [] with flags := { Flags.reset with z := true } } = true := by decide

-- VE14
theorem test_bmi_taken :
    completes 3 (fun t => t.pc == 0x8006#16)
      { start 0x8000#16 [0x30#8, 0x04#8] [] with flags := { Flags.reset with n := true } } = true := by decide

-- VE25
theorem test_bne_taken_across_a_page :
    completes 4 (fun t => t.pc == 0x8104#16)
      { start 0x80FD#16 [0xD0#8, 0x05#8] [] with flags := { Flags.reset with z := false } } = true := by decide

-- VE31
theorem test_bne_counts_from_the_next_instruction :
    completes 3 (fun t => t.pc == 0x8105#16)
      { start 0x80FE#16 [0xD0#8, 0x05#8] [] with flags := { Flags.reset with z := false } } = true := by decide

-- VE28
theorem test_bpl_wraps_past_the_top :
    completes 4 (fun t => t.pc == 0x0012#16)
      { start 0xFFF0#16 [0x10#8, 0x20#8] [] with flags := { Flags.reset with n := false } } = true := by decide

-- VE29
theorem test_bpl_offset_minus_128 :
    completes 4 (fun t => t.pc == 0x7F82#16)
      { start 0x8000#16 [0x10#8, 0x80#8] [] with flags := { Flags.reset with n := false } } = true := by decide

-- VE30
theorem test_bvc_offset_127 :
    completes 3 (fun t => t.pc == 0x8081#16)
      { start 0x8000#16 [0x50#8, 0x7F#8] [] with flags := { Flags.reset with v := false } } = true := by decide

-- VE22
theorem test_bvs_taken :
    completes 3 (fun t => t.pc == 0x8006#16)
      { start 0x8000#16 [0x70#8, 0x04#8] [] with flags := { Flags.reset with v := true } } = true := by decide

-- VF2
theorem test_pha_wraps_sp :
    completes 3 (fun t => t.sp == 0xFF#8 && t.pc == 0x8001#16 && t.bus.peek 0x0100#16 == 0x42#8)
      { start 0x8000#16 [0x48#8] [] with a := 0x42#8, sp := 0x00#8 } = true := by decide

-- VF5
theorem test_php_sets_bits_5_and_4 :
    completes 3 (fun t => t.sp == 0xFE#8 && t.pc == 0x8001#16 && t.bus.peek 0x01FF#16 == 0x30#8)
      { start 0x8000#16 [0x08#8] [] with flags := { Flags.reset with i := false } } = true := by decide

-- VF7
theorem test_pla_wraps_sp :
    completes 4 (fun t => t.a == 0x80#8 && t.sp == 0x00#8 && t.pc == 0x8001#16 && t.flags.n)
      { start 0x8000#16 [0x68#8] [(0x0100#16, [0x80#8])] with sp := 0xFF#8 } = true := by decide

-- VF9
theorem test_plp_clears_all_but_b :
    completes 4 (fun t => t.sp == 0xFF#8 && t.pc == 0x8001#16 && !t.flags.n && !t.flags.v && !t.flags.d &&
        !t.flags.i && !t.flags.z && !t.flags.c)
      { start 0x8000#16 [0x28#8] [(0x01FF#16, [0x00#8])] with sp := 0xFE#8, flags := { Flags.reset with c := true, z := true } } = true := by decide

-- VF10
theorem test_plp_ignores_bits_5_and_4 :
    completes 4 (fun t => t.sp == 0xFF#8 && t.pc == 0x8001#16 && t.flags.n && t.flags.v && t.flags.d &&
        t.flags.i && t.flags.z && t.flags.c)
      { start 0x8000#16 [0x28#8] [(0x01FF#16, [0xCF#8])] with sp := 0xFE#8 } = true := by decide

-- VF11
theorem test_clc :
    completes 2 (fun t => t.pc == 0x8001#16 && !t.flags.c)
      { start 0x8000#16 [0x18#8] [] with flags := { Flags.reset with c := true } } = true := by decide

-- VF12
theorem test_sec :
    completes 2 (fun t => t.pc == 0x8001#16 && t.flags.c)
      (start 0x8000#16 [0x38#8] []) = true := by decide

-- VF13
theorem test_cli :
    completes 2 (fun t => t.pc == 0x8001#16 && !t.flags.i)
      (start 0x8000#16 [0x58#8] []) = true := by decide

-- VF14
theorem test_sei :
    completes 2 (fun t => t.pc == 0x8001#16 && t.flags.i)
      { start 0x8000#16 [0x78#8] [] with flags := { Flags.reset with i := false } } = true := by decide

-- VF15
theorem test_cld :
    completes 2 (fun t => t.pc == 0x8001#16 && !t.flags.d)
      { start 0x8000#16 [0xD8#8] [] with flags := { Flags.reset with d := true } } = true := by decide

-- VF16
theorem test_sed :
    completes 2 (fun t => t.pc == 0x8001#16 && t.flags.d)
      (start 0x8000#16 [0xF8#8] []) = true := by decide

-- VF17
theorem test_clv :
    completes 2 (fun t => t.pc == 0x8001#16 && !t.flags.v)
      { start 0x8000#16 [0xB8#8] [] with flags := { Flags.reset with v := true } } = true := by decide

-- VF18
theorem test_nop :
    completes 2 (fun t => t.pc == 0x8001#16)
      (start 0x8000#16 [0xEA#8] []) = true := by decide

-- VF20
theorem test_brk_pushes_the_old_i :
    completes 7 (fun t => t.sp == 0xFC#8 && t.pc == 0x9000#16 && t.flags.d && t.flags.i &&
        t.bus.peek 0x01FD#16 == 0xB9#8 && t.bus.peek 0x01FE#16 == 0x12#8 && t.bus.peek 0x01FF#16 == 0x80#8)
      { start 0x8010#16 [0x00#8] [(0xFFFE#16, [0x00#8, 0x90#8])] with flags := { Flags.reset with n := true, c := true, i := false, d := true } } = true := by decide

theorem test_brk_pushes_the_old_i_transactions :
    stepTransactions { start 0x8010#16 [0x00#8] [(0xFFFE#16, [0x00#8, 0x90#8])] with flags := { Flags.reset with n := true, c := true, i := false, d := true } } =
      [.read 0x8010#16 0x00#8, .write 0x01FF#16 0x80#8, .write 0x01FE#16 0x12#8, .write 0x01FD#16 0xB9#8, .read 0xFFFE#16 0x00#8, .read 0xFFFF#16 0x90#8] := by decide

-- VG3
theorem test_brk_from_open_bus :
    completes 7 (fun t => t.sp == 0xFC#8 && t.pc == 0x0000#16 && t.bus.peek 0x01FD#16 == 0x34#8 &&
        t.bus.peek 0x01FE#16 == 0x02#8 && t.bus.peek 0x01FF#16 == 0x40#8)
      (start 0x4000#16 [] []) = true := by decide

-- VF22
theorem test_rti_restores_i :
    completes 6 (fun t => t.sp == 0xFF#8 && t.pc == 0x0200#16 && t.flags.n && t.flags.v && !t.flags.d &&
        !t.flags.i && t.flags.z && t.flags.c)
      { start 0x9000#16 [0x40#8] [(0x01FD#16, [0xC3#8, 0x00#8, 0x02#8])] with sp := 0xFC#8 } = true := by decide

-- VG1
theorem test_illegal_byte_changes_nothing :
    illegalFault 0x02#8 0x8000#16 (fun t => t.pc == 0x8000#16)
      { start 0x8000#16 [0x02#8] [] with a := 0x07#8 } = true := by decide

theorem test_illegal_byte_changes_nothing_transactions :
    stepTransactions { start 0x8000#16 [0x02#8] [] with a := 0x07#8 } =
      [.read 0x8000#16 0x02#8] := by decide

/-! ## Witnesses: for each obligation with hypotheses, inputs that meet them, each clause at a boundary of its range -/

/-- The state of `State.reset` with PC in RAM at 0x0200. -/
def inRam (code : List Byte) : State := start 0x0200#16 code []

/-- A table of one entry under another byte than the default's. -/
def otherTable : OpcodeTable := [⟨0x02#8, .lda, .abs, 3, 9, .none⟩]

theorem witness_EncodeThenDecodeReturnsTheInstruction :
    OpcodeTable.wf otherTable = true ∧ encodeWith otherTable (.ldaAbs 0x1234#16) = some [0x02#8, 0x34#8, 0x12#8] ∧
    encode (.ldaAbs 0x1234#16) = [0xAD#8, 0x34#8, 0x12#8] := by decide

theorem witness_DecodeThenEncodeReturnsTheBytes :
    decode [0xAD#8, 0x34#8, 0x12#8, 0x99#8] = .ok (.ldaAbs 0x1234#16, [0x99#8]) := rfl

theorem witness_UnassignedOpcodeFaultsWithStateUnchanged :
    OpcodeTable.lookup [] (inRam [0xEA#8]).opcodeByte = none ∧
    (inRam [0x02#8]).opcodeByte ∈ unassignedBytes ∧ (inRam [0xFF#8]).opcodeByte ∈ unassignedBytes ∧
    (inRam [0x00#8]).opcodeByte ∉ unassignedBytes ∧ (inRam [0xFE#8]).opcodeByte ∉ unassignedBytes := by decide

theorem witness_NotImplementedEntryFaultsWithStateUnchanged :
    OpcodeTable.mos6502.lookup (inRam [0xA9#8]).opcodeByte = some ⟨0xA9#8, .lda, .imm, 2, 2, .none⟩ ∧
    Mnemonic.lda ∉ [Mnemonic.adc] := by decide

theorem witness_StepRunsTheDecodedInstruction :
    decode (inRam [0x4C#8, 0x34#8, 0x12#8]).fetchBytes = .ok (.jmpAbs 0x1234#16, []) ∧
    decode (start 0xFFFF#16 [0xA9#8] []).fetchBytes = .ok (.ldaImm 0x00#8, [0x00#8]) ∧
    otherParams.table.lookup (inRam [0x02#8]).opcodeByte = some ⟨0x02#8, .sta, .imm, 2, 5, .none⟩ ∧
    Mnemonic.sta ∈ otherParams.implemented := ⟨rfl, rfl, by decide⟩

/-- At the last address, where PC wraps. -/
theorem witness_PcIsTheNextSequentialAddress :
    (Instr.mnemonic .nop ∉ [Mnemonic.jmp, .jsr, .rts, .rti, .brk, .bcc, .bcs, .beq, .bmi, .bne, .bpl, .bvc, .bvs]) ∧
    ∃ t, exec .nop (start 0xFFFF#16 [] []) = .next t ∧ t.pc = 0x0000#16 := ⟨by decide, _, rfl, rfl⟩

/-- Each of the three outcomes arises. -/
theorem witness_EveryStepCompletesOrFaultsByName :
    State.reset.CoreConfiguration ∧ completes 2 (fun _ => true) (inRam [0xEA#8]) = true ∧
    illegalFault 0x02#8 0x0200#16 (fun _ => true) (inRam [0x02#8]) = true ∧
    romFault 0x8000#16 0x00#8 (fun _ => true) (inRam [0x8D#8, 0x00#8, 0x80#8]) = true := ⟨rfl, by decide⟩

theorem witness_RomWriteViolationChangesPcOnly :
    (∃ left, exec (.incAbs 0x8000#16) (inRam []) = .fault (.romWriteViolation 0x8000#16 0x01#8 left)) ∧
    (∃ left, exec (.staAbx 0xFFFF#16) (inRam []) = .fault (.romWriteViolation 0xFFFF#16 0x00#8 left)) ∧
    Instr.operand (.incAbs 0x8000#16) = .mem (.abs 0x8000#16) ∧ Instr.mnemonic (.incAbs 0x8000#16) ∈ modifiers ∧
    Instr.operand (.staAbx 0xFFFF#16) = .mem (.abx 0xFFFF#16) ∧
    (∃ left, step (inRam [0x8D#8, 0x00#8, 0x80#8]) = .fault (.romWriteViolation 0x8000#16 0x00#8 left)) ∧
    0x8000 ≤ (0x8000#16).toNat := ⟨⟨_, rfl⟩, ⟨_, rfl⟩, rfl, by decide, rfl, ⟨_, rfl⟩, by decide⟩

theorem construct_ok {prg chr : List Byte} (h₁ : prg.length ≠ 0) (h₂ : prg.length % 16384 = 0)
    (h₃ : chr.length % 8192 = 0) : construct prg chr 0 = .ok (loadFixed prg chr) := by
  simp only [construct, mapperRegistry, List.lookup, Config.prgBank, Config.chrBank, h₁, h₂, h₃]
  rfl

theorem length_zeros (n : Nat) : (List.replicate n 0x00#8).length = n := List.length_replicate

/-- The smallest cartridge: one PRG bank, no CHR. -/
theorem poweredOn_smallest : ∃ cart, construct (List.replicate 16384 0x00#8) [] 0 = .ok cart ∧
    PoweredOn (State.powerOn cart [(2047, 0xFF#8)] []) := by
  have h := construct_ok (prg := List.replicate 16384 0x00#8) (chr := [])
    (by rw [length_zeros]; decide) (by rw [length_zeros]) rfl
  exact ⟨_, h, _, _, 0, _, _, [], h, by decide, rfl⟩

theorem witness_EveryPowerOnMeetsTheInvariant : ∃ s, PoweredOn s ∧ s.bus.ram = [(2047, 0xFF#8)] := by
  obtain ⟨cart, -, h⟩ := poweredOn_smallest
  exact ⟨_, h, rfl⟩

/-- A state with the invariant, a step from it that completes, one under another table, and a host write to the last RAM cell. -/
theorem witness_EveryStepKeepsTheInvariant :
    ((inRam [0x85#8, 0x10#8]).bus.wf = true ∧ (inRam [0x85#8, 0x10#8]).flags.b = true) ∧
    (∃ t, step { inRam [0x85#8, 0x10#8] with a := 0x01#8 } = .next t ∧ t.bus.peek 0x0010#16 = 0x01#8) ∧
    (∃ k t, runStep otherParams (inRam [0x02#8, 0x55#8]) = .ok k t ∧ t.bus.peek 0x0201#16 = 0x00#8) ∧
    ∃ t, State.reset.hostWrite 0x1FFF#16 0x01#8 = .next t ∧ t.bus.ram = [(2047, 0x01#8)] :=
  ⟨by decide, ⟨_, rfl, by decide⟩, ⟨_, _, rfl, by decide⟩, _, rfl, by decide⟩

/-- Reachable states exist, host accesses among them. -/
theorem witness_BreakFlagIsOneInEveryReachableState : ∃ s, Reachable s ∧ Reachable (s.hostRead 0x0000#16).2 := by
  obtain ⟨cart, -, h⟩ := poweredOn_smallest
  exact ⟨_, .powerOn h, .hostRead _ (.powerOn h)⟩

theorem witness_NoStepChangesCartridgeOrDevices :
    (∃ t, step (inRam [0xEA#8]) = .next t) ∧ (∃ f, step (inRam [0x02#8]) = .fault f) ∧
    ∃ f, step (inRam [0x8D#8, 0x00#8, 0x80#8]) = .fault f := ⟨⟨_, rfl⟩, ⟨_, rfl⟩, _, rfl⟩

/-- Instructions that change A, X, Y, SP, C, Z, I, D and V. -/
theorem witness_EachRegisterAndFlagChangesOnlyInItsWriters :
    (∃ t, exec (.adcImm 0x80#8) { State.reset with a := 0x80#8 } = .next t ∧
      t.a ≠ 0x80#8 ∧ t.flags.c ≠ State.reset.flags.c ∧ t.flags.z ≠ State.reset.flags.z ∧
      t.flags.v ≠ State.reset.flags.v) ∧
    (∃ t, exec .aslAcc { State.reset with a := 0x01#8 } = .next t ∧ t.a ≠ 0x01#8) ∧
    (∃ t, exec .dex State.reset = .next t ∧ t.x ≠ State.reset.x ∧ t.flags.n ≠ State.reset.flags.n) ∧
    (∃ t, exec .iny State.reset = .next t ∧ t.y ≠ State.reset.y) ∧
    (∃ t, exec .pha State.reset = .next t ∧ t.sp ≠ State.reset.sp) ∧
    (∃ t, exec .cli State.reset = .next t ∧ t.flags.i ≠ State.reset.flags.i) ∧
    ∃ t, exec .sed State.reset = .next t ∧ t.flags.d ≠ State.reset.flags.d :=
  ⟨⟨_, rfl, by decide⟩, ⟨_, rfl, by decide⟩, ⟨_, rfl, by decide⟩, ⟨_, rfl, by decide⟩, ⟨_, rfl, by decide⟩,
    ⟨_, rfl, by decide⟩, _, rfl, by decide⟩

theorem witness_InterruptAndDecimalFlagsAreInert :
    Instr.mnemonic (.adcImm 0x01#8) ≠ .php ∧ Instr.mnemonic (.adcImm 0x01#8) ≠ .brk ∧
    ∃ t, exec (.adcImm 0x01#8) { State.reset with a := 0x09#8 } = .next t ∧ t.a = 0x0A#8 :=
  ⟨by decide, by decide, _, rfl, by decide⟩

theorem witness_FormsThatStoreNothingLeaveMemoryAlone :
    (∃ t, exec (.cmpZp 0x10#8) State.reset = .next t) ∧ ¬ Stores (.cmpZp 0x10#8) ∧
    (∃ t, exec .rolAcc State.reset = .next t) ∧ ¬ Stores .rolAcc :=
  ⟨⟨_, rfl⟩, by simp [Stores, modifiers, Instr.mnemonic], ⟨_, rfl⟩, by simp [Stores, modifiers, Instr.mnemonic,
    Instr.operand]⟩

/-- A store to the last RAM address and a read-modify-write of open bus, with an address outside the cell. -/
theorem witness_MemoryWritersChangeOnlyTheAddressedCell :
    (Instr.operand (.staAbs 0x1FFF#16) = .mem (.abs 0x1FFF#16) ∧
      Instr.mnemonic (.staAbs 0x1FFF#16) ∈ [Mnemonic.sta, .stx, .sty] ∧
      (∃ t, exec (.staAbs 0x1FFF#16) State.reset = .next t) ∧
      ¬ SameCell 0x07FE#16 ((MemOperand.abs 0x1FFF#16).ea State.reset) ∧
      SameCell 0x07FF#16 ((MemOperand.abs 0x1FFF#16).ea State.reset)) ∧
    Instr.operand (.incAbs 0x2000#16) = .mem (.abs 0x2000#16) ∧ Instr.mnemonic (.incAbs 0x2000#16) ∈ modifiers ∧
    ∃ t, exec (.incAbs 0x2000#16) State.reset = .next t :=
  ⟨⟨rfl, by decide, ⟨_, rfl⟩, by simp [SameCell, MemOperand.ea], by simp [SameCell, MemOperand.ea]⟩,
    rfl, by decide, _, rfl⟩

/-- Each push, from SP = 0x00, where it wraps; 0x0102 is outside BRK's three bytes, 0x01FE is the last of them. -/
theorem witness_PushesChangeOnlyTheirStackBytes :
    (Instr.mnemonic .pha ∈ [Mnemonic.pha, .php] ∧ Instr.mnemonic .php ∈ [Mnemonic.pha, .php] ∧
      Instr.mnemonic (.jsr 0x0000#16) = .jsr ∧ Instr.mnemonic .brk = .brk) ∧
    (∃ t, exec .pha { State.reset with sp := 0x00#8 } = .next t) ∧
    (∃ t, exec .php { State.reset with sp := 0x00#8 } = .next t) ∧
    (∃ t, exec (.jsr 0x0000#16) { State.reset with sp := 0x00#8 } = .next t) ∧
    (∃ t, exec .brk { State.reset with sp := 0x00#8 } = .next t) ∧
    (∀ k < 3, ¬ SameCell 0x0102#16 (0x0100#16 + (0x00#8 - BitVec.ofNat 8 k).setWidth 16)) ∧
    SameCell 0x01FE#16 (0x0100#16 + (0x00#8 - BitVec.ofNat 8 2).setWidth 16) := by
  refine ⟨by decide, ⟨_, rfl⟩, ⟨_, rfl⟩, ⟨_, rfl⟩, ⟨_, rfl⟩, ?_, ?_⟩
  · intro k hk
    obtain rfl | rfl | rfl : k = 0 ∨ k = 1 ∨ k = 2 := by omega
    all_goals unfold SameCell; decide
  · unfold SameCell; decide

/-- One bank and two, the vector at the last bytes of each. -/
theorem witness_ResetLeavesTheStatedValues :
    (Cartridge.blank.banks = .one ∧ (twoBanks []).banks = .two) ∧
    State.reset = State.powerOn Cartridge.blank [] [] ∧
    (State.powerOn (twoBanks [(0x7FFC, 0x34#8), (0x7FFD, 0xC2#8)]) [] []).pc = 0xC234#16 :=
  ⟨⟨rfl, rfl⟩, rfl, by decide⟩

/-- The inputs of each clause, with the lengths of VK5, VK7 and VK11. -/
theorem witness_ConstructionChecksInOrder :
    (1 : Nat) ≠ 0 ∧ ([] : List Byte).length = 0 ∧
    ((List.replicate 16383 0x00#8).length ≠ 0 ∧ (List.replicate 16383 0x00#8).length % 16384 ≠ 0) ∧
    ((List.replicate 16384 0x00#8).length % 16384 = 0 ∧ (List.replicate 100 0x00#8).length % 8192 ≠ 0) ∧
    (List.replicate 49152 0x00#8).length % 16384 = 0 ∧ (List.replicate 16384 0x00#8).length % 8192 = 0 := by
  simp only [length_zeros]
  decide

/-- One PRG bank without CHR, two PRG banks with CHR; the first and the last address of the window. -/
theorem witness_ConstructedCartridgeShowsItsFirstBanks :
    (∃ c, construct (List.replicate 16384 0x00#8) [] 0 = .ok c) ∧
    (∃ c, construct (List.replicate 32768 0x00#8) (List.replicate 8192 0x00#8) 0 = .ok c) ∧
    (List.replicate 16384 0x00#8).length = 16384 ∧ (List.replicate 32768 0x00#8).length ≠ 16384 ∧
    ([] : List Byte).length = 0 ∧ (List.replicate 8192 0x00#8).length ≠ 0 ∧
    0x8000 ≤ (0x8000#16).toNat ∧ 0x8000 ≤ (0xFFFF#16).toNat := by
  refine ⟨⟨_, construct_ok ?_ ?_ rfl⟩, ⟨_, construct_ok ?_ ?_ ?_⟩, ?_⟩ <;> simp only [length_zeros] <;> decide

/-- A CHR bank read at 0x1FFF, the address after it, and no bank. -/
theorem witness_ReadChrAnswersTheLoadedBank :
    (Cartridge.mk .one [] (some [(0x1FFF, 0x07#8)])).chr = some [(0x1FFF, 0x07#8)] ∧ 0x1FFF < 0x2000 ∧
    Cartridge.blank.chr = none := ⟨rfl, by decide, rfl⟩

/-- The boundaries of RAM and MAPPER, and an unclaimed address beside an extra device. -/
theorem witness_FirstDeviceInOrderReceivesTheAccess :
    (0x1FFF#16).toNat < 0x2000 ∧ 0x8000 ≤ (0x8000#16).toNat ∧
    (0x2000 ≤ (0x2000#16).toNat ∧ (0x7FFF#16).toNat < 0x8000 ∧ deviceBus.claimed 0x2000#16 = false ∧
      deviceBus.claimed 0x7FFF#16 = false) ∧
    routeIn [.ram, .extra ⟨0x0000#16, 0xFFFF#16⟩] 0x2000#16 = some (.extra ⟨0x0000#16, 0xFFFF#16⟩) ∧
    routeIn [.ram, .mapper] 0x4000#16 = none := by decide

theorem witness_AddressMapOfReadsAndWrites :
    (0x07FF#16).toNat < 0x0800 ∧ (0x1FFF#16).toNat < 0x2000 ∧
    (0x2000 ≤ (0x2000#16).toNat ∧ (0x7FFF#16).toNat < 0x8000 ∧ State.reset.bus.extra = []) ∧
    deviceBus.claimed 0x4020#16 = false ∧ 0x8000 ≤ (0x8000#16).toNat ∧ (0xBFFF#16).toNat < 0xC000 ∧
    0xC000 ≤ (0xC000#16).toNat ∧ Cartridge.blank.banks = .one ∧ (twoBanks []).banks = .two := by decide

theorem witness_RamIsMirroredFourTimes :
    State.reset.bus.wf = true ∧ (0x1FFF#16).toNat < 0x2000 ∧ 0x07FF#16 &&& 0x07FF#16 = 0x1FFF#16 &&& 0x07FF#16 ∧
    ¬ ((0x2000#16).toNat < 0x2000 ∧ 0x2000#16 &&& 0x07FF#16 = 0x1FFF#16 &&& 0x07FF#16) := by decide

theorem witness_PrgBanksAreMirroredOrSeparate :
    0x8000 ≤ (0x8000#16).toNat ∧ Cartridge.blank.banks = .one ∧ 0x3FFF < 0x4000 ∧ (twoBanks []).banks = .two ∧
    0x7FFF < 0x8000 := by decide

theorem witness_LoadOperandReadsThroughTheAddress :
    decode (inRam [0xA9#8, 0x05#8]).fetchBytes = .ok (.ldaImm 0x05#8, [0x00#8]) ∧
    Instr.operand (.ldaImm 0x05#8) = .imm 0x05#8 := ⟨rfl, rfl⟩

theorem witness_EffectiveAddressOfEveryMode :
    MemOperand.izx 0xFF#8 ∈ [MemOperand.zp 0xFF#8, .zpx 0xFF#8, .zpy 0xFF#8, .abs 0xFFFF#16, .izx 0xFF#8] := by decide

theorem witness_StatusByteIsPackedAndUnpacked : Flags.reset.b = true := rfl

theorem witness_PushAndPullUseTheStackPage :
    (inRam [0xEA#8]).bus.wf = true ∧ ({ State.reset with sp := 0x00#8 } : State).bus.wf = true := by decide

theorem witness_LoadsWriteTheRegisterAndZN :
    Instr.mnemonic (.ldaIzx 0xFF#8) = .lda ∧ Instr.mnemonic (.ldxZpy 0xFF#8) = .ldx ∧
    Instr.mnemonic (.ldyAbx 0xFFFF#16) = .ldy := ⟨rfl, rfl, rfl⟩

/-- The four cases of a write, at their boundaries: RAM, ROM, open bus, an extra device. -/
theorem witness_StoresWriteTheRegisterThroughTheAddress :
    Instr.mnemonic (.staAbs 0x1FFF#16) = .sta ∧ Instr.mnemonic (.stxAbs 0x8000#16) = .stx ∧
    Instr.mnemonic (.styAbs 0x7FFF#16) = .sty ∧ State.reset.bus.claimed 0x7FFF#16 = false ∧
    deviceBus.claimed 0x4000#16 = true ∧
    (∃ t, exec (.staAbs 0x1FFF#16) State.reset = .next t) ∧ (∃ t, exec (.styAbs 0x7FFF#16) State.reset = .next t) ∧
    ∃ f, exec (.stxAbs 0x8000#16) State.reset = .fault f :=
  ⟨rfl, rfl, rfl, by decide, by decide, ⟨_, rfl⟩, ⟨_, rfl⟩, _, rfl⟩

/-- The host's write meets each case of `WritesByte`. -/
theorem witness_HostAccessesTouchNoRegister :
    (∃ t, State.reset.hostWrite 0x0000#16 0x01#8 = .next t) ∧ (∃ f, State.reset.hostWrite 0xFFFF#16 0x01#8 = .fault f) ∧
    (∃ t, State.reset.hostWrite 0x2000#16 0x01#8 = .next t) ∧ deviceBus.claimed 0x401F#16 = true :=
  ⟨⟨_, rfl⟩, ⟨_, rfl⟩, ⟨_, rfl⟩, by decide⟩

/-- Signed overflow on both sides, and the carry. -/
theorem witness_AdcAddsWithCarry :
    Instr.mnemonic (.adcImm 0x90#8) = .adc ∧ (Operand.imm 0x90#8).load State.reset = some 0x90#8 := ⟨rfl, rfl⟩

theorem witness_SbcSubtractsWithBorrow :
    Instr.mnemonic (.sbcIzy 0xFF#8) = .sbc ∧ ∃ m, (Instr.operand (.sbcIzy 0xFF#8)).load State.reset = some m :=
  ⟨rfl, _, rfl⟩

theorem witness_LogicCombinesAWithTheOperand :
    Instr.mnemonic (.andImm 0x0F#8) = .and ∧ Instr.mnemonic (.oraZp 0xFF#8) = .ora ∧
    Instr.mnemonic (.eorAby 0xFFFF#16) = .eor := ⟨rfl, rfl, rfl⟩

theorem witness_ComparesSetCZN :
    Instr.mnemonic (.cmpIzx 0xFF#8) = .cmp ∧ Instr.mnemonic (.cpxImm 0x00#8) = .cpx ∧
    Instr.mnemonic (.cpyAbs 0x2000#16) = .cpy := ⟨rfl, rfl, rfl⟩

theorem witness_BitTestsTheOperand : Instr.mnemonic (.bitZp 0x10#8) = .bit := rfl

theorem witness_IncAndDecModifyMemory :
    Instr.mnemonic (.incAbx 0x1FFF#16) = .inc ∧ Instr.mnemonic (.decAbs 0x8000#16) = .dec ∧
    (∃ t, exec (.incAbx 0x1FFF#16) State.reset = .next t) ∧ ∃ f, exec (.decAbs 0x8000#16) State.reset = .fault f :=
  ⟨rfl, rfl, ⟨_, rfl⟩, _, rfl⟩

theorem witness_ShiftsMoveOneBitThroughCarry :
    Instr.mnemonic .aslAcc = .asl ∧ Instr.mnemonic (.lsrZp 0xFF#8) = .lsr ∧ Instr.mnemonic (.rolAbs 0x8000#16) = .rol ∧
    Instr.mnemonic (.rorAbx 0x2000#16) = .ror := ⟨rfl, rfl, rfl, rfl⟩

theorem witness_RtsReturnsToTheInstructionAfterJsr :
    State.reset.bus.wf = true ∧ ∃ t, exec (.jsr 0x9000#16) { State.reset with sp := 0x00#8 } = .next t ∧
      ({ State.reset with sp := t.sp, bus := t.bus } : State).sp = 0xFE#8 := ⟨by decide, _, rfl, by decide⟩

/-- Each branch, with its flag set and clear, and both outcomes. -/
theorem witness_BranchesTestOneFlag :
    (Flags.reset.c = false ∧ Flags.reset.z = false ∧ Flags.reset.n = false ∧ Flags.reset.v = false) ∧
    (∃ t, exec (.bcc 0x80#8) (inRam []) = .next t ∧ t.pc = 0x0182#16) ∧
    (∃ t, exec (.bcs 0x80#8) (inRam []) = .next t ∧ t.pc = 0x0202#16) ∧
    (∃ t, exec (.beq 0x7F#8) { inRam [] with flags := { Flags.reset with z := true } } = .next t ∧ t.pc = 0x0281#16) ∧
    (∃ t, exec (.bmi 0x7F#8) (inRam []) = .next t ∧ t.pc = 0x0202#16) ∧
    (∃ t, exec (.bne 0xFE#8) (inRam []) = .next t ∧ t.pc = 0x0200#16) ∧
    (∃ t, exec (.bpl 0x80#8) (start 0x0000#16 [] []) = .next t ∧ t.pc = 0xFF82#16) ∧
    (∃ t, exec (.bvc 0x7F#8) (start 0xFFFE#16 [] []) = .next t ∧ t.pc = 0x007F#16) ∧
    ∃ t, exec (.bvs 0x00#8) (inRam []) = .next t ∧ t.pc = 0x0202#16 :=
  ⟨by decide, ⟨_, rfl, by decide⟩, ⟨_, rfl, by decide⟩, ⟨_, rfl, by decide⟩, ⟨_, rfl, by decide⟩,
    ⟨_, rfl, by decide⟩, ⟨_, rfl, by decide⟩, ⟨_, rfl, by decide⟩, _, rfl, by decide⟩

/-- The byte a pull reads from SP = 0xFF is the one at 0x0100. -/
theorem witness_StackInstructionsPushAndPull :
    0x80#8 = (start 0x0200#16 [] [(0x0100#16, [0x80#8])]).bus.ram.read
      (0x100 + ((start 0x0200#16 [] [(0x0100#16, [0x80#8])]).sp + 1#8).toNat) := by decide

theorem witness_BrkTakesTheTrapAndRtiReturns :
    0x34#8 = (start 0x0200#16 [] [(0x01FD#16, [0x34#8])]).bus.ram.read
      (0x100 + (({ start 0x0200#16 [] [(0x01FD#16, [0x34#8])] with sp := 0xFC#8 } : State).sp + 1#8).toNat) := by decide

theorem witness_RtiResumesTwoPastBrkWithTheSavedFlags :
    State.reset.bus.wf = true ∧ ∃ t, exec .brk State.reset = .next t ∧ t.flags.b = State.reset.flags.b ∧
      t.sp = 0xFC#8 := ⟨by decide, _, rfl, by decide⟩

/-- Modifier `none`; `page_cross` with and without the crossing; a branch not taken, taken, taken across a page; a fault. -/
theorem witness_CycleCountIsBasePlusPenalty :
    (decode (inRam [0xEA#8]).fetchBytes = .ok (.nop, [0x00#8, 0x00#8]) ∧
      OpcodeTable.mos6502.lookup (inRam [0xEA#8]).opcodeByte = some ⟨0xEA#8, .nop, .imp, 1, 2, .none⟩ ∧
      stepCycles (inRam [0xEA#8]) = some 2) ∧
    (decode (inRam [0xBD#8, 0xFF#8, 0x02#8]).fetchBytes = .ok (.ldaAbx 0x02FF#16, []) ∧
      OpcodeTable.mos6502.lookup (inRam [0xBD#8]).opcodeByte = some ⟨0xBD#8, .lda, .abx, 3, 4, .pageCross⟩ ∧
      stepCycles (inRam [0xBD#8, 0xFF#8, 0x02#8]) = some 4 ∧
      stepCycles { inRam [0xBD#8, 0xFF#8, 0x02#8] with x := 0x01#8 } = some 5) ∧
    (decode (inRam [0x90#8, 0x7D#8]).fetchBytes = .ok (.bcc 0x7D#8, [0x00#8]) ∧
      OpcodeTable.mos6502.lookup (inRam [0x90#8]).opcodeByte = some ⟨0x90#8, .bcc, .rel, 2, 2, .branch⟩ ∧
      stepCycles (inRam [0xB0#8, 0x7D#8]) = some 2 ∧ stepCycles (inRam [0x90#8, 0x7D#8]) = some 3 ∧
      stepCycles (inRam [0x90#8, 0x80#8]) = some 4) ∧
    ∃ f, step (inRam [0x02#8]) = .fault f :=
  ⟨⟨rfl, by decide⟩, ⟨rfl, by decide⟩, ⟨rfl, by decide⟩, _, rfl⟩

theorem witness_StepMakesAtMostSixTransactions :
    (stepTransactions (inRam [0x00#8])).length = 6 ∧ (stepTransactions (inRam [0x02#8])).length = 1 := by decide

theorem witness_ReadsPrecedeWritesExceptInBrk : Instr.incAbx 0xFFFF#16 ≠ .brk := by decide

theorem witness_TransactionsExplainTheMemoryAfterAStep :
    (∃ t, step { inRam [0x85#8, 0x10#8] with a := 0x01#8 } = .next t ∧ t.bus.peek 0x0810#16 = 0x01#8) ∧
    (∃ k t, runStep otherParams (inRam [0x0C#8, 0x10#8]) = .ok k t ∧ t.bus.peek 0x01FE#16 = 0x01#8) ∧
    ∃ k t, runStep otherParams (inRam [0x02#8, 0x55#8]) = .ok k t ∧ t.bus.peek 0x0A01#16 = 0x00#8 :=
  ⟨⟨_, rfl, by decide⟩, ⟨_, _, rfl, by decide⟩, _, _, rfl, by decide⟩

/-- A store, a read-modify-write and a push after which PC names a cell they wrote: STY at 0x0000 through a mirror of
0x0003, INC at 0x0000 of 0x0002, JSR at 0x0000 to its own low return byte. -/
theorem witness_StoreIsSeenByTheNextFetch :
    State.reset.bus.wf = true ∧ Stores (.styAbs 0x1803#16) ∧ Stores (.incZp 0x02#8) ∧ Stores (.jsr 0x01FE#16) ∧
    (∃ t, exec (.styAbs 0x1803#16) State.reset = .next t ∧ SameCell t.pc 0x1803#16 ∧
      .write 0x1803#16 0x00#8 ∈ instrTransactions (.styAbs 0x1803#16) State.reset) ∧
    (∃ t, exec (.incZp 0x02#8) State.reset = .next t ∧ SameCell t.pc 0x0002#16 ∧
      .write 0x0002#16 0x01#8 ∈ instrTransactions (.incZp 0x02#8) State.reset) ∧
    ∃ t, exec (.jsr 0x01FE#16) State.reset = .next t ∧ SameCell t.pc 0x01FE#16 ∧
      .write 0x01FE#16 0x02#8 ∈ instrTransactions (.jsr 0x01FE#16) State.reset := by
  refine ⟨by decide, ?_, ?_, ?_, ⟨_, rfl, ?_, by decide⟩, ⟨_, rfl, ?_, by decide⟩, _, rfl, ?_, by decide⟩
  all_goals first | (unfold Stores; decide) | (unfold SameCell; decide)

/-- A table that is accepted and tables that are not, for each condition and for the repeated byte. -/
theorem witness_OnlyWellFormedTablesAreAccepted :
    (Params.make otherParams.table []).toOption.isSome = true ∧
    (Params.make [⟨0x90#8, .bcc, .abs, 3, 2, .branch⟩] []).toOption = none ∧
    (Params.make [⟨0x0A#8, .asl, .acc, 2, 2, .none⟩] []).toOption = none ∧
    (Params.make [⟨0x0A#8, .asl, .zpx, 2, 2, .pageCross⟩] []).toOption = none ∧
    (Params.make [⟨0x0A#8, .asl, .acc, 1, 2, .none⟩, ⟨0x0A#8, .lsr, .acc, 1, 2, .none⟩] []).toOption = none := by decide

end Sys2Proof.Tests
end

section
/-! PROOFS, spec/10_state.md: what a completed operation can leave, said once for every mnemonic and operand, and the facts
about the state that follow. -/

namespace Sys2Proof.Machine

/-! ## What a step that completes can leave -/

/-- What a `StoreOperand` of `v` from `t` leaves when it is not refused (R121), the operand resolved in `s`: A in mode ACC;
else the RAM byte at `ea`, or nothing where the bus drops the write or an extra device takes it (R45, R73). -/
inductive Stored (o : Operand) (s : State) (v : Byte) (t : State) : State → Prop
  | acc : o = .acc → Stored o s v t (t.setA v)
  | ram {a : Addr} : o.ea s = some a → a.toNat < 0x2000 → Stored o s v t (t.setBus (t.bus.writeRam a v))
  | dropped {a : Addr} : o.ea s = some a → 0x2000 ≤ a.toNat → a.toNat < 0x8000 → Stored o s v t t

/-- What the operation of `m` through `o` leaves of `s` when it completes: one constructor for each shape of operation. -/
inductive Completed (m : Mnemonic) (o : Operand) (s : State) : State → Prop
  | read {f : Byte → State → State} {v : Byte} : readOperation m = some f → o.load s = some v →
    Completed m o s (f v (s.advance o.mode.length))
  | implied {f : State → State} : impliedOperation m = some f → Completed m o s (f (s.advance o.mode.length))
  | store {v : Byte} {t : State} : storedRegister m s = some v → Stored o s v (s.advance o.mode.length) t →
    Completed m o s t
  | modify {op : ModifyOp} {v : Byte} {t : State} : modifyOperation m = some op → o.load s = some v →
    Stored o s (op s.flags v).1 (s.advance o.mode.length) t → Completed m o s (t.setFlags (op s.flags v).2)
  | call {t : State} {a : Addr} : m = .jsr → o.ea s = some a → t = s.advance o.mode.length →
    Completed m o s ((t.pushWord (t.pc - 1#16)).setPc a)
  | jump {a : Addr} : m = .jmp ∨ isBranch m = true → o.ea s = some a →
    Completed m o s ((s.advance o.mode.length).setPc a)
  | stay : m = .jmp ∨ isBranch m = true → Completed m o s (s.advance o.mode.length)

/-- A write that completes lands in RAM, or lies between RAM and PRG and leaves the state. -/
theorem State.write_next {s t : State} {a : Addr} {v : Byte} (h : s.write a v = .next t) :
    (a.toNat < 0x2000 ∧ t = s.setBus (s.bus.writeRam a v)) ∨ (0x2000 ≤ a.toNat ∧ a.toNat < 0x8000 ∧ t = s) := by
  rcases s.write_cases a v with ⟨ha, e⟩ | ⟨-, e⟩ | ⟨ha, ha', -, e⟩ | ⟨ha, ha', -, e | e⟩ <;> rw [e] at h <;> cases h
  · exact .inl ⟨ha, rfl⟩
  · exact .inr ⟨ha, ha', rfl⟩
  · exact .inr ⟨ha, ha', rfl⟩

/-- A write that is refused leaves the state (R222). -/
theorem State.write_fault {s : State} {a : Addr} {v : Byte} {e : Fault} (h : s.write a v = .fault e) : e.left = s := by
  rcases s.write_cases a v with ⟨-, h'⟩ | ⟨-, h'⟩ | ⟨-, -, -, h'⟩ | ⟨-, -, -, h' | h'⟩ <;> rw [h'] at h <;> cases h <;> rfl

theorem storeOperand_next {o : Operand} {s t u : State} {v : Byte} (h : storeOperand o s v t = some (.next u)) :
    Stored o s v t u := by
  rcases storeOperand_cases h with ⟨ho, e⟩ | ⟨a, hea, e⟩
  · cases e
    exact .acc ho
  · rcases State.write_next e.symm with ⟨ha, rfl⟩ | ⟨ha, ha', rfl⟩
    · exact .ram hea ha
    · exact .dropped hea ha ha'

theorem storeOperand_fault {o : Operand} {s t : State} {v : Byte} {e : Fault}
    (h : storeOperand o s v t = some (.fault e)) : e.left = t := by
  rcases storeOperand_cases h with ⟨-, h'⟩ | ⟨a, -, h'⟩
  · cases h'
  · exact State.write_fault h'.symm

/-- The mnemonics with no other operation are the transfers of control. -/
theorem transfer_of_no_operation {m : Mnemonic} {s : State} (hr : readOperation m = none)
    (hs : storedRegister m s = none) (hm : modifyOperation m = none) (hi : impliedOperation m = none) :
    m = .jsr ∨ m = .jmp ∨ isBranch m = true := by
  revert hr hs hm hi
  cases m <;> simp [readOperation, storedRegister, modifyOperation, impliedOperation, isBranch]

/-- An operation that completes leaves what one of the shapes leaves. -/
theorem execForm_next {m : Mnemonic} {o : Operand} {s t : State} (h : execForm m o s = .next t) : Completed m o s t := by
  rcases execForm_cases m o s with ⟨f, v, hf, hv, e⟩ | ⟨v, hv, e⟩ | ⟨op, hop, e⟩ | ⟨f, hf, e⟩ | ⟨hr, hs, hm, hi, e⟩ | e <;>
    rw [h] at e
  case inl => cases e; exact .read hf hv
  case inr.inl => exact .store hv (storeOperand_next e)
  case inr.inr.inl =>
    obtain ⟨v, q, hv, hq, ⟨u, rfl, e⟩ | ⟨_, -, e⟩ | ⟨_, -, e⟩⟩ := modifyOperand_cases e <;> cases e
    exact .modify hop hv (storeOperand_next hq)
  case inr.inr.inr.inl => cases e; exact .implied hf
  case inr.inr.inr.inr.inl =>
    rcases transferControl_cases e with ⟨hj, a, hea, e⟩ | ⟨hj, e⟩
    · cases e; exact .call hj hea rfl
    · have hm := (transfer_of_no_operation hr hs hm hi).resolve_left hj
      rcases e with e | ⟨a, hea, e⟩ <;> cases e
      · exact .stay hm
      · exact .jump hm hea
  case inr.inr.inr.inr.inr => cases e

/-- An operation that faults leaves the state in which PC has advanced, and nothing else changed (R222). -/
theorem execForm_fault {m : Mnemonic} {o : Operand} {s : State} {e : Fault} (h : execForm m o s = .fault e) :
    e.left = s.advance o.mode.length := by
  rcases execForm_cases m o s with ⟨f, v, -, -, h'⟩ | ⟨v, -, h'⟩ | ⟨op, -, h'⟩ | ⟨f, -, h'⟩ | ⟨-, -, -, -, h'⟩ | h' <;>
    rw [h] at h'
  case inr.inl => exact storeOperand_fault h'
  case inr.inr.inl =>
    obtain ⟨v, q, -, hq, ⟨u, -, h'⟩ | ⟨e', rfl, h'⟩ | ⟨_, -, h'⟩⟩ := modifyOperand_cases h' <;> cases h'
    exact storeOperand_fault hq
  case inr.inr.inr.inr.inl =>
    rcases transferControl_cases h' with ⟨-, a, -, h'⟩ | ⟨-, h' | ⟨a, -, h'⟩⟩ <;> cases h'
  all_goals cases h'

/-- What a step can be under any parameters: a fault that leaves the state alone (R221, R223), or the counted operation of
an entry of the table. -/
theorem runStep_cases (p : Params) (s : State) :
    (∃ e, runStep p s = .fault e ∧ e.left = s) ∨
      ∃ e, p.table.lookup s.opcodeByte = some e ∧ runStep p s =
        account (cycleCount e (s.fetchOperand e.mode) s) (execForm e.mnemonic (s.fetchOperand e.mode) s) := by
  cases h : p.table.lookup s.opcodeByte with
  | none => exact .inl ⟨.illegalOpcode s.opcodeByte s.pc s, by simp only [runStep, h], rfl⟩
  | some e =>
    cases hi : p.implemented.contains e.mnemonic with
    | true => exact .inr ⟨e, rfl, runStep_of_lookup h hi⟩
    | false =>
      exact .inl ⟨.notImplemented s.opcodeByte e.mnemonic s.pc s,
        by simp only [runStep, h, hi, Bool.false_eq_true, if_false], rfl⟩

/-- A step that completes has completed the operation of the entry its opcode byte selects. -/
theorem runStep_ok {p : Params} {s t : State} {n : Nat} (h : runStep p s = .ok n t) :
    ∃ e, p.table.lookup s.opcodeByte = some e ∧ Completed e.mnemonic (s.fetchOperand e.mode) s t := by
  rcases runStep_cases p s with ⟨e, h', -⟩ | ⟨e, he, h'⟩ <;> rw [h'] at h
  · cases h
  · cases hr : execForm e.mnemonic (s.fetchOperand e.mode) s <;> rw [hr] at h <;> cases h
    exact ⟨e, he, execForm_next hr⟩

/-- CORE's step that completes is a `runStep` that returns a count. -/
theorem step_next {s t : State} (h : step s = .next t) : ∃ n, runStep .core s = .ok n t := by
  rw [step] at h
  cases hr : runStep .core s <;> rw [hr] at h <;> cases h
  exact ⟨_, rfl⟩

/-- A step that faults leaves the state as it was, PC and the model's count apart (R221 to R223). -/
theorem step_fault {s : State} {e : Fault} (h : step s = .fault e) : e.left = s ∨ ∃ n, e.left = s.advance n := by
  rw [step] at h
  rcases runStep_cases .core s with ⟨e', h', hl⟩ | ⟨e', -, h'⟩ <;> rw [h'] at h
  · cases h
    exact .inl hl
  · cases hr : execForm e'.mnemonic (s.fetchOperand e'.mode) s <;> rw [hr] at h <;> cases h
    exact .inr ⟨_, execForm_fault hr⟩

/-- What `exec` leaves when it completes. -/
theorem exec_next {i : Instr} {s t : State} (h : exec i s = .next t) : Completed i.mnemonic i.operand s t :=
  execForm_next (exec_eq_execForm i s ▸ h)

/-! ## What an operation keeps: the ROM, the devices and B -/

/-- From `s` to `t` nothing behind the bus but RAM has changed, RAM is canonical if it was, and B is as it was. -/
structure State.Keeps (s t : State) : Prop where
  cart : t.bus.cart = s.bus.cart
  extra : t.bus.extra = s.bus.extra
  wf : s.bus.wf = true → t.bus.wf = true
  b : t.flags.b = s.flags.b

theorem State.Keeps.of_bus {s t : State} (hbus : t.bus = s.bus) (hb : t.flags.b = s.flags.b) : s.Keeps t :=
  ⟨by rw [hbus], by rw [hbus], fun h => by rwa [hbus], hb⟩

theorem State.Keeps.of_writeRam {s t : State} {a : Addr} {v : Byte} (hbus : t.bus = s.bus.writeRam a v)
    (hb : t.flags.b = s.flags.b) : s.Keeps t :=
  ⟨by rw [hbus, Bus.writeRam_cart], by rw [hbus, Bus.writeRam_extra], fun h => hbus ▸ Bus.writeRam_wf a v h, hb⟩

theorem State.Keeps.trans {s t u : State} (h : s.Keeps t) (h' : t.Keeps u) : s.Keeps u :=
  ⟨h'.cart.trans h.cart, h'.extra.trans h.extra, h'.wf ∘ h.wf, h'.b.trans h.b⟩

theorem State.Keeps.inv {s t : State} (h : s.Keeps t) (hs : s.Inv) : t.Inv := by
  obtain ⟨hwf, hb⟩ := hs
  exact ⟨h.wf hwf, h.b.trans hb⟩

theorem State.keeps_advance (s : State) (n : Nat) : s.Keeps (s.advance n) := .of_bus rfl rfl

theorem State.keeps_push (s : State) (v : Byte) : s.Keeps (s.push v) := .of_writeRam (s.push_bus v) rfl

theorem State.keeps_pushWord (s : State) (w : Addr) : s.Keeps (s.pushWord w) :=
  (s.keeps_push _).trans ((s.push _).keeps_push _)

theorem State.keeps_takeTrap (s : State) : s.Keeps s.takeTrap :=
  ((s.keeps_pushWord _).trans ((s.pushWord _).keeps_push _)).trans
    (.of_bus s.takeTrap_bus (by rw [State.takeTrap_flags]; rfl))

theorem readOperation_keeps {m : Mnemonic} {f : Byte → State → State} (h : readOperation m = some f) (v : Byte)
    (t : State) : t.Keeps (f v t) := by
  cases m <;> cases h <;> exact .of_bus rfl rfl

/-- Of the operations without an operand PHA, PHP and BRK push; the others leave the bus. -/
theorem impliedOperation_keeps {m : Mnemonic} {f : State → State} (h : impliedOperation m = some f) (t : State) :
    t.Keeps (f t) := by
  cases m <;> cases h
  case pha | php => exact t.keeps_push _
  case brk => exact t.keeps_takeTrap
  all_goals exact .of_bus rfl rfl

theorem modifyOperation_b {m : Mnemonic} {op : ModifyOp} (h : modifyOperation m = some op) (f : Flags) (v : Byte) :
    (op f v).2.b = f.b := by
  cases m <;> cases h <;> rfl

theorem Stored.keeps {o : Operand} {s t u : State} {v : Byte} (h : Stored o s v t u) : t.Keeps u := by
  cases h with
  | acc _ => exact .of_bus rfl rfl
  | ram _ _ => exact .of_writeRam rfl rfl
  | dropped _ _ _ => exact .of_bus rfl rfl

/-- A store leaves the flags. -/
theorem Stored.flags {o : Operand} {s t u : State} {v : Byte} (h : Stored o s v t u) : u.flags = t.flags := by
  cases h <;> rfl

/-- Whatever an operation does, it changes nothing behind the bus but RAM, and keeps B. -/
theorem Completed.keeps {m : Mnemonic} {o : Operand} {s t : State} (h : Completed m o s t) : s.Keeps t := by
  refine (s.keeps_advance o.mode.length).trans ?_
  cases h with
  | read hf _ => exact readOperation_keeps hf _ _
  | implied hf => exact impliedOperation_keeps hf _
  | store _ hs => exact hs.keeps
  | modify hop _ hs =>
    exact hs.keeps.trans (.of_bus rfl ((modifyOperation_b hop _ _).trans (congrArg Flags.b hs.flags.symm)))
  | call _ _ ht => exact ht ▸ (State.keeps_pushWord _ _).trans (.of_bus rfl rfl)
  | jump _ _ => exact .of_bus rfl rfl
  | stay _ => exact .of_bus rfl rfl

theorem hostWrite_keeps {s t : State} {a : Addr} {v : Byte} (h : s.hostWrite a v = .next t) : s.Keeps t := by
  rcases State.write_next h with ⟨-, rfl⟩ | ⟨-, -, rfl⟩
  · exact .of_writeRam rfl rfl
  · exact .of_bus rfl rfl

theorem runStep_keeps {p : Params} {s t : State} {n : Nat} (h : runStep p s = .ok n t) : s.Keeps t := by
  obtain ⟨e, -, hc⟩ := runStep_ok h
  exact hc.keeps

theorem step_keeps {s t : State} (h : step s = .next t) : s.Keeps t := by
  obtain ⟨n, hn⟩ := step_next h
  exact runStep_keeps hn

/-- A step that faults leaves everything behind the bus and every flag (R221 to R223). -/
theorem step_fault_frame {s : State} {e : Fault} (h : step s = .fault e) :
    e.left.bus = s.bus ∧ e.left.flags = s.flags := by
  rcases step_fault h with e' | ⟨n, e'⟩ <;> rw [e'] <;> exact ⟨rfl, rfl⟩

/-! ## The invariant, B, the cartridge and the devices -/

/-- Settles O13: a step writes RAM only, through a write that keeps the canonical form, and no operation writes B. -/
theorem everyStepKeepsTheInvariant : Obligations.EveryStepKeepsTheInvariant :=
  ⟨fun _ _ hs h => (step_keeps h).inv hs, fun _ _ _ _ hs h => (runStep_keeps h).inv hs,
    fun _ _ _ _ hs h => (hostWrite_keeps h).inv hs⟩

/-- B is 1 after every power-on (R241), and every move between reachable states keeps it. -/
theorem Reachable.b {t : State} (h : Reachable t) : t.flags.b = true := by
  induction h with
  | powerOn hp =>
    obtain ⟨_, _, _, _, _, _, -, -, rfl⟩ := hp
    rfl
  | step _ hst ih => exact (step_keeps hst).b.trans ih
  | resume _ hst ih => exact (congrArg Flags.b (step_fault_frame hst).2).trans ih
  | hostRead _ _ ih => exact ih
  | hostWrite _ hw ih => exact (hostWrite_keeps hw).b.trans ih

/-- Settles O15: a step that completes writes RAM only, and one that faults leaves the bus of the state before it. -/
theorem noStepChangesCartridgeOrDevices : Obligations.NoStepChangesCartridgeOrDevices :=
  ⟨fun _ _ h => ⟨(step_keeps h).cart, (step_keeps h).extra⟩, fun _ _ h => (step_fault_frame h).1⟩

/-! ## The status byte -/

/-- `pack` as the list of its bits, bit 7 first (R24). -/
theorem Flags.pack_eq_ofBoolListBE (f : Flags) :
    f.pack = BitVec.ofBoolListBE [f.n, f.v, true, f.b, f.d, f.i, f.z, f.c] := by
  obtain ⟨c, z, i, d, b, v, n⟩ := f
  revert c z i d b v n
  decide

/-- Packing what was unpacked gives the byte back, with bit 5 set and bit 4 the B of the machine (R24, R25). -/
theorem Flags.pack_unpack {f : Flags} (hb : f.b = true) (p : Byte) : (f.unpack p).pack = p ||| 0x30#8 := by
  rw [Flags.pack_eq_ofBoolListBE, Flags.unpack_b, hb]
  change BitVec.ofBoolListBE [p.getLsbD 7, p.getLsbD 6, true, true, p.getLsbD 3, p.getLsbD 2, p.getLsbD 1,
    p.getLsbD 0] = _
  revert p
  decide

/-- Settles O33, from the bits of the byte packed and the byte unpacked. -/
theorem statusByteIsPackedAndUnpacked : Obligations.StatusByteIsPackedAndUnpacked :=
  ⟨rfl, fun f p => ⟨f.pack_eq_ofBoolListBE, rfl, fun hb => f.pack_unpack hb p⟩⟩

/-- Settles O14: unpacking its own status byte leaves the flags, so packing them again sets bits 5 and 4. -/
theorem breakFlagIsOneInEveryReachableState : Obligations.BreakFlagIsOneInEveryReachableState := by
  intro t ht
  have hself : t.flags.unpack t.flags.pack = t.flags := Flags.unpack_pack t.flags t.flags
  exact ⟨ht.b, by rw [← Flags.pack_unpack ht.b, hself]⟩

/-! ## PC after an operation -/

/-- The mnemonics that set PC themselves (R14): the jumps, the call, the returns, the trap and the branches. -/
def transfersOfControl : List Mnemonic :=
  [.jmp, .jsr, .rts, .rti, .brk, .bcc, .bcs, .beq, .bmi, .bne, .bpl, .bvc, .bvs]

theorem transfersOfControl_of_isBranch {m : Mnemonic} (h : isBranch m = true) : m ∈ transfersOfControl := by
  revert h
  cases m <;> decide

theorem readOperation_pc {m : Mnemonic} {f : Byte → State → State} (h : readOperation m = some f) (v : Byte)
    (t : State) : (f v t).pc = t.pc := by
  cases m <;> cases h <;> rfl

theorem impliedOperation_pc {m : Mnemonic} {f : State → State} (h : impliedOperation m = some f)
    (hm : m ∉ transfersOfControl) (t : State) : (f t).pc = t.pc := by
  cases m <;> cases h
  case rts | rti | brk => exact absurd (by decide) hm
  all_goals rfl

theorem Stored.pc {o : Operand} {s t u : State} {v : Byte} (h : Stored o s v t u) : u.pc = t.pc := by
  cases h <;> rfl

/-- An operation that is no transfer of control leaves PC where the step has advanced it (R104). -/
theorem Completed.pc {m : Mnemonic} {o : Operand} {s t : State} (h : Completed m o s t)
    (hm : m ∉ transfersOfControl) : t.pc = s.pc + BitVec.ofNat 16 o.mode.length := by
  have jumps (hj : m = .jmp ∨ isBranch m = true) : m ∈ transfersOfControl := by
    rcases hj with rfl | hb
    · decide
    · exact transfersOfControl_of_isBranch hb
  cases h with
  | read hf _ => exact readOperation_pc hf _ _
  | implied hf => exact impliedOperation_pc hf hm _
  | store _ hs => exact hs.pc
  | modify _ _ hs => exact hs.pc
  | call hj _ _ => exact absurd (hj ▸ by decide) hm
  | jump hj _ => exact absurd (jumps hj) hm
  | stay _ => rfl

/-- Settles O8, from the PC that the operation leaves. -/
theorem pcIsTheNextSequentialAddress : Obligations.PcIsTheNextSequentialAddress := by
  intro i s t hm h
  have hpc : t.pc = s.pc + BitVec.ofNat 16 i.length := (exec_next h).pc hm
  rw [hpc, BitVec.toNat_add, BitVec.toNat_ofNat, Nat.add_mod_mod]

/-! ## Which mnemonics write a register or a flag -/

/-- From `s` to `t` a register or flag differs only if 10_state.md section 1 lists the mnemonic as its writer (R11 to R13,
R16 to R22). -/
def ChangedByWriters (m : Mnemonic) (o : Operand) (s t : State) : Prop :=
  (t.a ≠ s.a → m ∈ [Mnemonic.lda, .txa, .tya, .pla, .adc, .sbc, .and, .ora, .eor] ∨
    (m ∈ [Mnemonic.asl, .lsr, .rol, .ror] ∧ o = .acc)) ∧
  (t.x ≠ s.x → m ∈ [Mnemonic.ldx, .tax, .tsx, .inx, .dex]) ∧
  (t.y ≠ s.y → m ∈ [Mnemonic.ldy, .tay, .iny, .dey]) ∧
  (t.sp ≠ s.sp → m ∈ [Mnemonic.txs, .pha, .php, .jsr, .brk, .pla, .plp, .rts, .rti]) ∧
  (t.flags.c ≠ s.flags.c → m ∈
    [Mnemonic.adc, .sbc, .cmp, .cpx, .cpy, .asl, .lsr, .rol, .ror, .clc, .sec, .plp, .rti]) ∧
  (t.flags.z ≠ s.flags.z ∨ t.flags.n ≠ s.flags.n → m ∈
    [Mnemonic.lda, .ldx, .ldy, .tax, .tay, .txa, .tya, .tsx, .pla, .adc, .sbc, .and, .ora, .eor, .inc, .dec,
      .inx, .iny, .dex, .dey, .asl, .lsr, .rol, .ror, .cmp, .cpx, .cpy, .bit, .plp, .rti]) ∧
  (t.flags.i ≠ s.flags.i → m ∈ [Mnemonic.sei, .cli, .brk, .plp, .rti]) ∧
  (t.flags.d ≠ s.flags.d → m ∈ [Mnemonic.sed, .cld, .plp, .rti]) ∧
  t.flags.b = s.flags.b ∧
  (t.flags.v ≠ s.flags.v → m ∈ [Mnemonic.adc, .sbc, .bit, .clv, .plp, .rti])

theorem readOperation_writers {m : Mnemonic} {f : Byte → State → State} (h : readOperation m = some f) (o : Operand)
    (v : Byte) (t : State) : ChangedByWriters m o t (f v t) := by
  cases m <;> cases h <;>
    simp [ChangedByWriters, loadA, loadX, loadY, addA, subA, andA, orA, eorA, compareA, compareX, compareY, bitA]

theorem impliedOperation_writers {m : Mnemonic} {f : State → State} (h : impliedOperation m = some f) (o : Operand)
    (t : State) : ChangedByWriters m o t (f t) := by
  cases m <;> cases h <;> simp [ChangedByWriters, loadA, loadX, loadY, loadPulled, State.returnFromTrap_flags]

/-- A store leaves every register but A, and A outside mode ACC. -/
theorem Stored.registers {o : Operand} {s t u : State} {v : Byte} (h : Stored o s v t u) :
    (u.a ≠ t.a → o = .acc) ∧ u.x = t.x ∧ u.y = t.y ∧ u.sp = t.sp := by
  cases h with
  | acc ho => exact ⟨fun _ => ho, rfl, rfl, rfl⟩
  | ram _ _ => exact ⟨fun ha => absurd rfl ha, rfl, rfl, rfl⟩
  | dropped _ _ _ => exact ⟨fun ha => absurd rfl ha, rfl, rfl, rfl⟩

/-- An operation changes only what its mnemonic is listed for, where mode ACC goes with the shifts and rotates alone. -/
theorem Completed.writers {m : Mnemonic} {o : Operand} {s t : State} (h : Completed m o s t)
    (hacc : o = .acc → m ∈ [Mnemonic.asl, .lsr, .rol, .ror]) : ChangedByWriters m o s t := by
  cases h with
  | read hf _ => exact readOperation_writers hf o _ _
  | implied hf => exact impliedOperation_writers hf o _
  | store _ hs =>
    obtain ⟨ha, hx, hy, hsp⟩ := hs.registers
    refine ⟨fun hne => .inr ⟨hacc (ha hne), ha hne⟩, ?_⟩
    simp [hx, hy, hsp, hs.flags]
  | modify hop _ hs =>
    obtain ⟨ha, hx, hy, hsp⟩ := hs.registers
    refine ⟨fun hne => .inr ⟨hacc (ha hne), ha hne⟩, ?_⟩
    cases m <;> cases hop <;>
      simp [hx, hy, hsp, Flags.inc, Flags.dec, Flags.asl, Flags.lsr, Flags.rol, Flags.ror]
  | call hj _ ht => simp [ChangedByWriters, State.pushWord, hj, ht]
  | jump _ _ => simp [ChangedByWriters]
  | stay _ => simp [ChangedByWriters]

/-- In R89 mode ACC goes with the shifts and rotates alone. -/
theorem acc_operand_mnemonic {i : Instr} (h : i.operand = .acc) : i.mnemonic ∈ [Mnemonic.asl, .lsr, .rol, .ror] := by
  cases i <;> cases h <;> simp [Instr.mnemonic]

/-- Settles O16, shape of operation by shape of operation. -/
theorem eachRegisterAndFlagChangesOnlyInItsWriters : Obligations.EachRegisterAndFlagChangesOnlyInItsWriters :=
  fun _ _ _ h => (exec_next h).writers acc_operand_mnemonic

/-! ## I and D are inert -/

/-- The state with I and D replaced (R18, R19). -/
def State.withID (s : State) (i d : Bool) : State := { s with flags := { s.flags with i := i, d := d } }

/-- `t'` is `t` but for I and D. -/
def State.AgreesUpToID (t t' : State) : Prop := t' = t.withID t'.flags.i t'.flags.d

theorem State.agreesUpToID_withID (t : State) (p q : Bool) : t.AgreesUpToID (t.withID p q) := rfl

theorem operand_ea_withID (o : Operand) (s : State) (p q : Bool) : o.ea (s.withID p q) = o.ea s := by
  cases o with
  | mem m => cases m <;> rfl
  | acc | imp | imm _ | ind _ | rel _ => rfl

theorem operand_load_withID (o : Operand) (s : State) (p q : Bool) : o.load (s.withID p q) = o.load s := by
  cases o with
  | mem m => cases m <;> rfl
  | acc | imp | imm _ | ind _ | rel _ => rfl

theorem storedRegister_withID (m : Mnemonic) (s : State) (p q : Bool) :
    storedRegister m (s.withID p q) = storedRegister m s := by
  cases m <;> rfl

theorem branchTaken_withID (m : Mnemonic) (s : State) (p q : Bool) :
    branchTaken m (s.withID p q).flags = branchTaken m s.flags := by
  cases m <;> rfl

theorem readOperation_withID {m : Mnemonic} {f : Byte → State → State} (h : readOperation m = some f) (v : Byte)
    (t : State) (p q : Bool) : f v (t.withID p q) = (f v t).withID p q := by
  cases m <;> cases h <;> rfl

/-- PHP and BRK push I and D (R201, R212); what any other operation without an operand leaves differs in I and D alone. -/
theorem impliedOperation_withID {m : Mnemonic} {f : State → State} (h : impliedOperation m = some f)
    (hphp : m ≠ .php) (hbrk : m ≠ .brk) (t : State) (p q : Bool) : (f t).AgreesUpToID (f (t.withID p q)) := by
  cases m <;> cases h
  case php => exact absurd rfl hphp
  case brk => exact absurd rfl hbrk
  all_goals rfl

/-- A read-modify-write computes its byte and its flags without I and D, and leaves them. -/
theorem modifyOperation_withID {m : Mnemonic} {op : ModifyOp} (h : modifyOperation m = some op) (s : State) (v : Byte)
    (p q : Bool) : op (s.withID p q).flags v = ((op s.flags v).1, { (op s.flags v).2 with i := p, d := q }) := by
  cases m <;> cases h <;> rfl

theorem State.write_withID {s t : State} {a : Addr} {v : Byte} (h : s.write a v = .next t) (p q : Bool) :
    (s.withID p q).write a v = .next (t.withID p q) := by
  have hbus : (s.withID p q).bus.write (s.withID p q).tick a v = s.bus.write s.tick a v := rfl
  rw [State.write] at h ⊢
  rw [hbus]
  cases hb : s.bus.write s.tick a v with
  | ok b => rw [hb] at h; cases h; rfl
  | error e => cases e <;> rw [hb] at h <;> cases h

theorem storeOperand_withID {o : Operand} {s t u : State} {v : Byte} (h : storeOperand o s v t = some (.next u))
    (p q : Bool) : storeOperand o (s.withID p q) v (t.withID p q) = some (.next (u.withID p q)) := by
  by_cases ho : o = .acc
  · subst ho
    cases h
    rfl
  · rw [storeOperand_of_ne ho] at h ⊢
    obtain ⟨a, ha, hw⟩ := Option.map_eq_some_iff.1 h
    rw [operand_ea_withID, ha, Option.map_some, State.write_withID hw]

theorem modifyOperand_withID {m : Mnemonic} {op : ModifyOp} (hop : modifyOperation m = some op) {o : Operand}
    {s t u : State} (h : modifyOperand op o s t = some (.next u)) (p q : Bool) :
    modifyOperand op o (s.withID p q) (t.withID p q) = some (.next (u.withID p q)) := by
  obtain ⟨v, r, hv, hr, ⟨w, rfl, e⟩ | ⟨_, -, e⟩ | ⟨_, -, e⟩⟩ := modifyOperand_cases h <;> cases e
  simp only [modifyOperand, operand_load_withID, hv, modifyOperation_withID hop, storeOperand_withID hr, Option.bind_some,
    Option.map_some]
  rfl

/-- A transfer of control but JMP and JSR is a branch: it jumps when its condition holds and else stays (R183). -/
theorem transferControl_of_ne_jump {m : Mnemonic} (hjmp : m ≠ .jmp) (hjsr : m ≠ .jsr) (o : Operand) (s t : State) :
    transferControl m o s t =
      if branchTaken m s.flags then (o.ea s).map (fun a => .next (t.setPc a)) else some (.next t) := by
  unfold transferControl
  split
  · exact absurd rfl hjmp
  · exact absurd rfl hjsr
  · rfl

theorem transferControl_withID {m : Mnemonic} {o : Operand} {s t u : State}
    (h : transferControl m o s t = some (.next u)) (p q : Bool) :
    transferControl m o (s.withID p q) (t.withID p q) = some (.next (u.withID p q)) := by
  by_cases hj : m = .jmp ∨ m = .jsr
  · rcases hj with rfl | rfl
    all_goals
      obtain ⟨a, ha, e⟩ := Option.map_eq_some_iff.1 h
      cases e
      simp only [transferControl, operand_ea_withID, ha, Option.map_some]
      rfl
  · obtain ⟨hjmp, hjsr⟩ := not_or.1 hj
    rw [transferControl_of_ne_jump hjmp hjsr] at h ⊢
    rw [branchTaken_withID, operand_ea_withID]
    cases hb : branchTaken m s.flags <;> rw [hb] at h
    · cases h
      rfl
    · obtain ⟨a, ha, e⟩ := Option.map_eq_some_iff.1 h
      cases e
      rw [ha]
      rfl

/-- An operation that completes from a state completes from the state with any I and D, and the results agree but for
them: PHP and BRK apart, which push them. -/
theorem operate_withID {m : Mnemonic} (hphp : m ≠ .php) (hbrk : m ≠ .brk) {o : Operand} {s t : State}
    (h : operate m o s = some (.next t)) (p q : Bool) :
    ∃ t', operate m o (s.withID p q) = some (.next t') ∧ t.AgreesUpToID t' := by
  have hadv : (s.withID p q).advance o.mode.length = (s.advance o.mode.length).withID p q := rfl
  simp only [operate, storedRegister_withID, operand_load_withID, hadv] at h ⊢
  split at h
  case h_1 f hf =>
    obtain ⟨v, hv, e⟩ := Option.map_eq_some_iff.1 h
    cases e
    simp only [hv, Option.map_some, readOperation_withID hf]
    exact ⟨_, rfl, State.agreesUpToID_withID _ p q⟩
  case h_2 v _ _ =>
    exact ⟨_, storeOperand_withID h p q, State.agreesUpToID_withID _ p q⟩
  case h_3 op _ _ hop =>
    exact ⟨_, modifyOperand_withID hop h p q, State.agreesUpToID_withID _ p q⟩
  case h_4 f _ _ _ hf =>
    cases h
    exact ⟨_, rfl, impliedOperation_withID hf hphp hbrk _ p q⟩
  case h_5 _ _ _ _ =>
    exact ⟨_, transferControl_withID h p q, State.agreesUpToID_withID _ p q⟩

theorem execForm_eq_next {m : Mnemonic} {o : Operand} {s t : State} :
    execForm m o s = .next t ↔ operate m o s = some (.next t) := by
  rw [execForm]
  cases operate m o s with
  | none => exact ⟨nofun, nofun⟩
  | some r => rw [Option.getD_some, Option.some.injEq]

/-- Settles O17: replacing I and D commutes with every operation but those of PHP and BRK. -/
theorem interruptAndDecimalFlagsAreInert : Obligations.InterruptAndDecimalFlagsAreInert := by
  intro i s t p q hphp hbrk h
  rw [exec_eq_execForm, execForm_eq_next] at h
  obtain ⟨t', ht', hagree⟩ := operate_withID hphp hbrk h p q
  refine ⟨t', ?_, hagree⟩
  rw [exec_eq_execForm, execForm_eq_next]
  exact ht'

end Sys2Proof.Machine
end

section
/-! PROOFS, spec/20_memory.md: the cartridge that construction yields, the address map and its routing, and what the write
transactions of an instruction leave in RAM. -/

namespace Sys2Proof.Machine

/-! ## Construction and bank loading -/

theorem construct_of_number_ne_zero {number : Nat} (h : number ≠ 0) (prgRom chrRom : List Byte) :
    construct prgRom chrRom number = .error (.unsupportedMapper number) := by
  have hl : mapperRegistry.lookup number = none := by
    rw [mapperRegistry, List.lookup_cons, beq_false_of_ne h]
    rfl
  rw [construct, hl]

/-- Construction for mapper number 0: the checks of R53 that are left, in their order. -/
theorem construct_zero (prgRom chrRom : List Byte) :
    construct prgRom chrRom 0 =
      if prgRom.length = 0 then .error .noPrgData
      else if prgRom.length % 16384 ≠ 0 then .error (.sizeMismatch .prg prgRom.length)
      else if chrRom.length % 8192 ≠ 0 then .error (.sizeMismatch .chr chrRom.length)
      else .ok (loadFixed prgRom chrRom) := rfl

/-- Settles O22: each check is the next branch of construction. -/
theorem constructionChecksInOrder : Obligations.ConstructionChecksInOrder := by
  intro prgRom chrRom number
  refine ⟨fun hn => construct_of_number_ne_zero hn prgRom chrRom, ?_, ?_, ?_, ?_⟩ <;> rintro rfl hempty <;>
    rw [construct_zero]
  · rw [if_pos hempty]
  · intro hprg
    rw [if_neg hempty, if_pos hprg]
  · intro hprg hchr
    rw [if_neg hempty, if_neg (not_not.2 hprg), if_pos hchr]
  · intro hprg hchr
    exact ⟨_, by rw [if_neg hempty, if_neg (not_not.2 hprg), if_neg (not_not.2 hchr)]⟩

/-- Inputs that construct a cartridge have passed the four checks, and the cartridge holds the banks loaded (R53, R55). -/
theorem construct_ok {prgRom chrRom : List Byte} {number : Nat} {c : Cartridge}
    (h : construct prgRom chrRom number = .ok c) :
    prgRom.length ≠ 0 ∧ prgRom.length % 16384 = 0 ∧ chrRom.length % 8192 = 0 ∧ c = loadFixed prgRom chrRom := by
  by_cases hn : number = 0
  · subst hn
    rw [construct_zero] at h
    split_ifs at h with hempty hprg hchr
    cases h
    exact ⟨hempty, not_not.1 hprg, not_not.1 hchr, rfl⟩
  · rw [construct_of_number_ne_zero hn] at h
    cases h

theorem loadFixed_banks {prgRom : List Byte} (h : prgRom.length % 16384 = 0) (chrRom : List Byte) :
    (loadFixed prgRom chrRom).banks = if prgRom.length = 16384 then .one else .two := by
  have hone : prgRom.length / 16384 = 1 ↔ prgRom.length = 16384 := by omega
  exact if_congr hone rfl rfl

theorem loadFixed_chr_nil {chrRom : List Byte} (h : chrRom.length = 0) (prgRom : List Byte) :
    (loadFixed prgRom chrRom).chr = none :=
  if_neg (by rw [h]; decide)

theorem loadFixed_chr {chrRom : List Byte} (h : chrRom.length ≠ 0) (hmod : chrRom.length % 8192 = 0)
    (prgRom : List Byte) : (loadFixed prgRom chrRom).chr = some (Memory.ofBytes (chrRom.take 8192)) :=
  if_pos (show 8192 ≤ chrRom.length by omega)

/-- The array of the first `n` bytes of a sequence reads as the sequence below `n`. -/
theorem Memory.read_ofBytes_take (bytes : List Byte) {n i : Nat} (h : i < n) :
    (Memory.ofBytes (bytes.take n)).read i = bytes.getD i 0x00#8 := by
  rw [Memory.read_ofBytes, List.getD_eq_getElem?_getD, List.getD_eq_getElem?_getD, List.getElem?_take_of_lt h]
  rfl

theorem loadFixed_prg_read (prgRom chrRom : List Byte) {i : Nat} (h : i < 32768) :
    (loadFixed prgRom chrRom).prg.read i = prgRom.getD i 0x00#8 :=
  Memory.read_ofBytes_take prgRom h

/-- The arrays loaded are canonical and of the sizes of their banks. -/
theorem loadFixed_wf {prgRom chrRom : List Byte} (hprg : prgRom.length % 16384 = 0) (hchr : chrRom.length % 8192 = 0) :
    (loadFixed prgRom chrRom).wf = true := by
  rw [Cartridge.wf, Bool.and_eq_true]
  constructor
  · apply Memory.ofBytes_wf
    rw [loadFixed_banks hprg]
    split_ifs with h
    · exact (List.length_take_le' _ _).trans h.le
    · exact List.length_take_le _ _
  · by_cases h : chrRom.length = 0
    · rw [loadFixed_chr_nil h]
      rfl
    · rw [loadFixed_chr h hchr]
      exact Memory.ofBytes_wf (List.length_take_le _ _)

theorem construct_wf {prgRom chrRom : List Byte} {number : Nat} {c : Cartridge}
    (h : construct prgRom chrRom number = .ok c) : c.wf = true := by
  obtain ⟨-, hprg, hchr, rfl⟩ := construct_ok h
  exact loadFixed_wf hprg hchr

/-- Settles O12: construction and RAM_INIT give canonical arrays, and reset sets B (R241). -/
theorem everyPowerOnMeetsTheInvariant : Obligations.EveryPowerOnMeetsTheInvariant := by
  rintro s ⟨prgRom, chrRom, number, cart, ramInit, extra, hcart, hram, rfl⟩
  have hbus : (Bus.mk ramInit cart extra).wf = true := Bool.and_eq_true_iff.2 ⟨hram, construct_wf hcart⟩
  exact ⟨hbus, rfl⟩

/-! ## Reading PRG and CHR -/

theorem sub_prgStart_toNat {a : Addr} (h : 0x8000 ≤ a.toNat) : (a - Config.prgStart).toNat = a.toNat - 0x8000 :=
  BitVec.toNat_sub_of_le h

/-- One bank is mirrored (R57). -/
theorem Cartridge.readPrg_one {c : Cartridge} (hc : c.banks = .one) {a : Addr} (h : 0x8000 ≤ a.toNat) :
    c.readPrg a = c.prg.read ((a.toNat - 0x8000) % 0x4000) := by
  have hi : c.prgIndex a = (a.toNat - 0x8000) &&& (2 ^ 14 - 1) := by
    simp only [Cartridge.prgIndex, hc, BitVec.toNat_and, sub_prgStart_toNat h]
    rfl
  rw [Cartridge.readPrg, hi, Nat.and_two_pow_sub_one_eq_mod]

/-- Two banks lie one behind the other (R57). -/
theorem Cartridge.readPrg_two {c : Cartridge} (hc : c.banks = .two) {a : Addr} (h : 0x8000 ≤ a.toNat) :
    c.readPrg a = c.prg.read (a.toNat - 0x8000) := by
  simp only [Cartridge.readPrg, Cartridge.prgIndex, hc, sub_prgStart_toNat h]

theorem State.readChr_of_lt {s : State} {bank : Memory} (hc : s.bus.cart.chr = some bank) {k : Nat} (hk : k < 8192) :
    s.readChr k = .ok (bank.read k) := by
  simp only [State.readChr, hc]
  exact if_pos hk

theorem State.readChr_of_none {s : State} (hc : s.bus.cart.chr = none) (k : Nat) :
    s.readChr k = .error (.chrUnavailable k) := by
  simp only [State.readChr, hc]

theorem State.readChr_of_ge (s : State) {k : Nat} (hk : 8192 ≤ k) : s.readChr k = .error (.chrUnavailable k) := by
  cases hc : s.bus.cart.chr with
  | none => exact State.readChr_of_none hc k
  | some bank =>
    simp only [State.readChr, hc]
    exact if_neg (Nat.not_lt.2 hk)

/-- Settles O24: an index lies in the loaded bank, lies past it, or no bank is loaded. -/
theorem readChrAnswersTheLoadedBank : Obligations.ReadChrAnswersTheLoadedBank :=
  fun s k => ⟨fun _ hc hk => State.readChr_of_lt hc (Nat.lt_succ_of_le hk), s.readChr_of_ge,
    fun hc => State.readChr_of_none hc k⟩

/-- Settles O23: the cartridge is the one `loadFixed` loads. -/
theorem constructedCartridgeShowsItsFirstBanks : Obligations.ConstructedCartridgeShowsItsFirstBanks := by
  intro prgRom chrRom number c h
  have hwf := construct_wf h
  obtain ⟨-, hprg, hchr, rfl⟩ := construct_ok h
  refine ⟨hwf, ?_, ?_, fun hnil => loadFixed_chr_nil hnil prgRom, ?_⟩
  · intro hone a ha
    rw [Cartridge.readPrg_one ((loadFixed_banks hprg chrRom).trans (if_pos hone)) ha, loadFixed_prg_read _ _ (by omega)]
  · intro htwo a ha
    have := a.isLt
    rw [Cartridge.readPrg_two ((loadFixed_banks hprg chrRom).trans (if_neg htwo)) ha, loadFixed_prg_read _ _ (by omega)]
  · intro hne s hs k hk
    rw [State.readChr_of_lt ((congrArg Cartridge.chr hs).trans (loadFixed_chr hne hchr prgRom)) hk,
      Memory.read_ofBytes_take chrRom hk]

/-- Settles O28, from the PRG index of the two addresses. -/
theorem prgBanksAreMirroredOrSeparate : Obligations.PrgBanksAreMirroredOrSeparate := by
  have hto {n : Nat} (h : n < 65536) : (BitVec.ofNat 16 n).toNat = n :=
    (BitVec.toNat_ofNat n 16).trans (Nat.mod_eq_of_lt h)
  refine ⟨fun b tick slot a ha => b.read_prg tick slot ha, fun c k => ⟨fun hone hk => ?_, fun htwo hk => ?_⟩⟩
  · have hlow := hto (n := 0x8000 + k) (by omega)
    have hhigh := hto (n := 0xC000 + k) (by omega)
    rw [Cartridge.readPrg_one hone (by omega), Cartridge.readPrg_one hone (by omega), hlow, hhigh]
    exact ⟨congrArg c.prg.read (by omega), congrArg c.prg.read (by omega)⟩
  · have hlow := hto (n := 0x8000 + k) (by omega)
    rw [Cartridge.readPrg_two htwo (by omega), hlow, Nat.add_sub_cancel_left]

/-! ## Routing and the address map -/

/-- Routing answers the first device that claims the address (R43, R47). -/
theorem routeIn_eq_some_iff {devices : List Device} {a : Addr} {d : Device} :
    routeIn devices a = some d ↔ ∃ before after, devices = before ++ d :: after ∧ d.chipSelect a = true ∧
      ∀ e ∈ before, e.chipSelect a = false := by
  rw [routeIn, List.find?_eq_some_iff_append]
  constructor
  · rintro ⟨hd, before, after, rfl, hbefore⟩
    exact ⟨before, after, rfl, hd, fun e he => by simpa using hbefore e he⟩
  · rintro ⟨before, after, rfl, hd, hbefore⟩
    exact ⟨hd, before, after, rfl, fun e he => by simpa using hbefore e he⟩

theorem routeIn_eq_none_iff {devices : List Device} {a : Addr} :
    routeIn devices a = none ↔ ∀ d ∈ devices, d.chipSelect a = false := by
  simp only [routeIn, List.find?_eq_none, Bool.not_eq_true]

/-- Settles O25: routing is the search for the first device that claims the address. -/
theorem firstDeviceInOrderReceivesTheAccess : Obligations.FirstDeviceInOrderReceivesTheAccess :=
  ⟨fun _ => ⟨rfl, rfl⟩, fun _ _ _ => routeIn_eq_some_iff, fun _ _ => routeIn_eq_none_iff,
    fun b _ => ⟨rfl, b.route_ram, b.route_mapper, b.route_open⟩⟩

/-- RAM receives exactly the accesses below 0x2000 (R49). -/
theorem Bus.route_eq_ram_iff (b : Bus) {a : Addr} : b.route a = some .ram ↔ a.toNat < 0x2000 :=
  ⟨fun h => of_decide_eq_true (List.find?_some (p := fun d : Device => d.chipSelect a) h), b.route_ram⟩

theorem Bus.write_of_ram (b : Bus) (tick : Nat) {a : Addr} (v : Byte) (h : a.toNat < 0x2000) :
    b.write tick a v = .ok (b.writeRam a v) := by
  rw [Bus.write, b.route_ram h]

theorem Bus.write_of_mapper (b : Bus) (tick : Nat) {a : Addr} (v : Byte) (h : 0x8000 ≤ a.toNat) :
    b.write tick a v = .error .readOnly := by
  rw [Bus.write, b.route_mapper h]

theorem Bus.write_of_open (b : Bus) (tick : Nat) {a : Addr} (v : Byte) (h : 0x2000 ≤ a.toNat) (h' : a.toNat < 0x8000)
    (hc : b.claimed a = false) : b.write tick a v = .ok b := by
  rw [Bus.write, b.route_open h h' hc]

theorem Bus.writeRam_eq (b : Bus) (a : Addr) (v : Byte) :
    b.writeRam a v = { b with ram := b.ram.write (a.toNat % 2048) v } := by
  rw [Bus.writeRam, ramCell_eq]

theorem Bus.claimed_of_extra_nil {b : Bus} (h : b.extra = []) (a : Addr) : b.claimed a = false := by
  rw [Bus.claimed, h, List.any_nil]

/-- Settles O26, row by row. -/
theorem addressMapOfReadsAndWrites : Obligations.AddressMapOfReadsAndWrites := by
  intro b tick slot a v
  have hram (h : a.toNat < 0x2000) : b.read tick slot a = b.ram.read (a.toNat % 2048) ∧
      b.write tick a v = .ok { b with ram := b.ram.write (a.toNat % 2048) v } :=
    ⟨b.read_ram tick slot h, b.writeRam_eq a v ▸ b.write_of_ram tick v h⟩
  refine ⟨fun h => ?_, hram, fun h h' hx => ?_, fun h h' => ?_, fun h htwo => ?_, fun h hone => ?_,
    b.write_of_mapper tick v⟩
  · have := hram (by omega)
    rwa [Nat.mod_eq_of_lt h] at this
  · have hc : b.claimed a = false := hx.elim (fun hnil => Bus.claimed_of_extra_nil hnil a) id
    exact ⟨b.read_open tick slot h h' hc, b.write_of_open tick v h h' hc⟩
  · rw [b.read_prg tick slot h]
    cases hb : b.cart.banks with
    | one => rw [Cartridge.readPrg_one hb h, Nat.mod_eq_of_lt (by omega)]
    | two => exact Cartridge.readPrg_two hb h
  · rw [b.read_prg tick slot (by omega), Cartridge.readPrg_two htwo (by omega)]
  · rw [b.read_prg tick slot (by omega), Cartridge.readPrg_one hone (by omega)]
    exact congrArg b.cart.prg.read (by omega)

/-! ## RAM and its images -/

/-- Two masked addresses agree when their cells do (R48). -/
theorem and_ramMask_eq_iff {a w : Addr} : w &&& 0x07FF#16 = a &&& 0x07FF#16 ↔ w.toNat % 2048 = a.toNat % 2048 := by
  rw [← ramCell_eq, ← ramCell_eq]
  exact BitVec.toNat_inj.symm

theorem Bus.read_writeRam_same {b : Bus} {a w : Addr} (v : Byte) (tick : Nat) (slot : Config.ReadSlot)
    (hb : b.wf = true) (hw : w.toNat < 0x2000) (he : w.toNat % 2048 = a.toNat % 2048) :
    (b.writeRam a v).read tick slot w = v := by
  rw [Bus.read_ram _ _ _ hw, ← Bus.peek_ram _ hw, b.peek_writeRam_same v hb hw he]

/-- A write to RAM changes no read of another cell, of PRG, of the open bus or of an extra device. -/
theorem Bus.read_writeRam_other (b : Bus) {a w : Addr} (v : Byte) (tick : Nat) (slot : Config.ReadSlot)
    (h : w.toNat < 0x2000 → w.toNat % 2048 ≠ a.toNat % 2048) :
    (b.writeRam a v).read tick slot w = b.read tick slot w := by
  rw [Bus.read, Bus.read, Bus.route_writeRam]
  cases hd : b.route w with
  | none => rfl
  | some d =>
    cases d with
    | ram =>
      have hne : ramCell a ≠ ramCell w := by
        rw [ramCell_eq, ramCell_eq]
        exact (h (b.route_eq_ram_iff.1 hd)).symm
      exact Memory.read_write_other v hne b.ram
    | mapper => rfl
    | extra e => rfl

/-- Settles O27: masking an address keeps its cell, and a write changes one cell. -/
theorem ramIsMirroredFourTimes : Obligations.RamIsMirroredFourTimes := by
  intro b a hb ha
  refine ⟨fun tick slot => ?_, fun tick v => ⟨b.writeRam a v, b.write_of_ram tick v ha, Bus.writeRam_wf a v hb, ?_, ?_⟩⟩
  · have hmask : (a &&& 0x07FF#16).toNat = a.toNat % 2048 := ramCell_eq a
    rw [b.read_ram tick slot ha, b.read_ram tick slot (by omega), hmask, Nat.mod_mod]
  · intro w tick' slot hw he
    exact Bus.read_writeRam_same v tick' slot hb hw (and_ramMask_eq_iff.1 he)
  · intro w tick' slot hne
    exact b.read_writeRam_other v tick' slot fun hw he => hne ⟨hw, and_ramMask_eq_iff.2 he⟩

/-! ## Host accesses and word reads -/

/-- A memory write does what the address map says (R61). -/
theorem State.write_writesByte (s : State) (a : Addr) (v : Byte) : WritesByte s a v (fun t => t) (s.write a v) := by
  refine ⟨fun h => ?_, fun h => ?_, fun h h' hc => ?_, fun h h' hc => ?_⟩
  · rw [State.write, s.bus.write_of_ram s.tick v h, Bus.writeRam_eq]
    rfl
  · rw [State.write, s.bus.write_of_mapper s.tick v h]
  · rw [State.write, s.bus.write_of_open s.tick v h h' hc]
    rfl
  · rcases s.write_cases a v with ⟨hlt, -⟩ | ⟨hge, -⟩ | ⟨-, -, hopen, -⟩ | ⟨-, -, -, e⟩
    · omega
    · omega
    · rw [hopen] at hc; cases hc
    · exact e

/-- Settles O29: a host access is the memory access of the state whose count has advanced. -/
theorem hostAccessesTouchNoRegister : Obligations.HostAccessesTouchNoRegister :=
  fun _ _ _ => ⟨rfl, rfl, State.write_writesByte _ _ _⟩

/-- Settles O30, from the two bytes of each word. -/
theorem wordReadsAreLittleEndianAndWrap : Obligations.WordReadsAreLittleEndianAndWrap := by
  intro s lowSlot highSlot a zp
  refine ⟨⟨a + 1#16, BitVec.toNat_add a 1#16, ?_⟩, ?_⟩
  · rw [State.readWord_toNat, Nat.add_comm, Nat.mul_comm]
  · have hnext : (zp + 1#8).toNat = (zp.toNat + 1) % 256 := BitVec.toNat_add zp 1#8
    rw [State.readWordZp_toNat, hnext, Nat.add_comm, Nat.mul_comm]

/-! ## The write transactions of an instruction -/

/-- The writes of a list of transactions, in order. -/
def writesOf (ts : List Transaction) : List (Addr × Byte) :=
  ts.filterMap fun
    | .read _ _ => none
    | .write a v => some (a, v)

@[simp] theorem writesOf_nil : writesOf [] = [] := rfl
@[simp] theorem writesOf_read (a : Addr) (v : Byte) (ts : List Transaction) :
    writesOf (.read a v :: ts) = writesOf ts := rfl
@[simp] theorem writesOf_write (a : Addr) (v : Byte) (ts : List Transaction) :
    writesOf (.write a v :: ts) = (a, v) :: writesOf ts := rfl
@[simp] theorem writesOf_append (ts us : List Transaction) : writesOf (ts ++ us) = writesOf ts ++ writesOf us :=
  List.filterMap_append

theorem mem_writesOf {a : Addr} {v : Byte} : {ts : List Transaction} → (a, v) ∈ writesOf ts ↔ .write a v ∈ ts
  | [] => by simp
  | .read _ _ :: ts => by simp [mem_writesOf (ts := ts)]
  | .write _ _ :: ts => by simp [mem_writesOf (ts := ts)]

@[simp] theorem writesOf_operandByteTransactions (o : Operand) (s : State) :
    writesOf (operandByteTransactions o s) = [] := by
  cases o with
  | mem m => cases m <;> rfl
  | acc | imp | imm _ | ind _ | rel _ => rfl

@[simp] theorem writesOf_pointerTransactions (o : Operand) (s : State) : writesOf (pointerTransactions o s) = [] := by
  cases o with
  | mem m => cases m <;> rfl
  | acc | imp | imm _ | ind _ | rel _ => rfl

@[simp] theorem writesOf_loadTransactions (o : Operand) (s : State) : writesOf (loadTransactions o s) = [] := by
  cases o <;> rfl

@[simp] theorem writesOf_pullTransactions (s : State) : (n : Nat) → (sp : Byte) →
    writesOf (pullTransactions s sp n) = []
  | 0, _ => rfl
  | n + 1, sp => writesOf_pullTransactions s n (sp + 1#8)

/-- Only the operation itself writes: through `ea`, or on the stack (R126). -/
theorem writesOf_formTransactions (m : Mnemonic) (o : Operand) (s : State) :
    writesOf (formTransactions m o s) = writesOf (memoryTransactions m o s) ++ writesOf (stackTransactions m o s) := by
  simp [formTransactions, opcodeTransaction]

theorem writesOf_read_form {m : Mnemonic} {f : Byte → State → State} (h : readOperation m = some f) (o : Operand)
    (s : State) : writesOf (formTransactions m o s) = [] := by
  rw [writesOf_formTransactions]
  cases m <;> cases h <;> exact congrArg (· ++ []) (writesOf_loadTransactions o s)

theorem writesOf_store_form {m : Mnemonic} {s : State} {v : Byte} (h : storedRegister m s = some v) (o : Operand) :
    writesOf (formTransactions m o s) = writesOf (storeTransactions o v s) := by
  rw [writesOf_formTransactions]
  cases m <;> cases h <;> exact List.append_nil _

theorem writesOf_modify_form {m : Mnemonic} {op : ModifyOp} (h : modifyOperation m = some op) {o : Operand} {s : State}
    {v : Byte} (hv : o.load s = some v) :
    writesOf (formTransactions m o s) = writesOf (storeTransactions o (op s.flags v).1 s) := by
  rw [writesOf_formTransactions]
  cases m <;> cases h <;>
    simp [memoryTransactions, stackTransactions, readOperation, storedRegister, modifyOperation, hv]

theorem writesOf_implied_form {m : Mnemonic} {f : State → State} (h : impliedOperation m = some f) (o : Operand)
    (s : State) : writesOf (formTransactions m o s) = writesOf (stackTransactions m o s) := by
  rw [writesOf_formTransactions]
  cases m <;> cases h <;> rfl

/-- JSR pushes the two bytes of its return address, high byte first (R181). -/
theorem writesOf_jsr_form {o : Operand} {s : State} {a : Addr} (h : o.ea s = some a) :
    writesOf (formTransactions .jsr o s) =
      [(stackAddress s.sp, hi ((s.advance o.mode.length).pc - 1#16)),
        (stackAddress (s.sp - 1#8), lo ((s.advance o.mode.length).pc - 1#16))] := by
  rw [writesOf_formTransactions, stackTransactions, h]
  rfl

theorem writesOf_jump_form {m : Mnemonic} (h : m = .jmp ∨ isBranch m = true) (o : Operand) (s : State) :
    writesOf (formTransactions m o s) = [] := by
  rw [writesOf_formTransactions]
  revert h
  cases m <;> simp [isBranch, memoryTransactions, stackTransactions, readOperation, storedRegister, modifyOperation]

/-! ## What the writes leave behind the bus -/

/-- What one write leaves behind the bus: RAM takes it, anything else stores nothing (R44, R45). -/
def Bus.land (b : Bus) (w : Addr × Byte) : Bus := if w.1.toNat < 0x2000 then b.writeRam w.1 w.2 else b

theorem Bus.land_of_lt (b : Bus) {a : Addr} (v : Byte) (h : a.toNat < 0x2000) : b.land (a, v) = b.writeRam a v :=
  if_pos h

theorem Bus.land_of_ge (b : Bus) {a : Addr} (v : Byte) (h : 0x2000 ≤ a.toNat) : b.land (a, v) = b :=
  if_neg (Nat.not_lt.2 h)

@[simp] theorem Bus.land_stack (b : Bus) (sp v : Byte) :
    b.land (stackAddress sp, v) = b.writeRam (stackAddress sp) v :=
  b.land_of_lt v (stackAddress_lt sp)

theorem Bus.land_wf {b : Bus} (w : Addr × Byte) (h : b.wf = true) : (b.land w).wf = true := by
  unfold Bus.land
  split
  · exact Bus.writeRam_wf _ _ h
  · exact h

theorem replayWrites_write (b : Bus) (a : Addr) (v : Byte) (ts : List Transaction) :
    replayWrites b (.write a v :: ts) = replayWrites (b.land (a, v)) ts := by
  rw [replayWrites]
  split
  · next h => rw [b.land_of_lt v (b.route_eq_ram_iff.1 h)]
  · next h => rw [b.land_of_ge v (Nat.not_lt.1 fun hlt => h (b.route_ram hlt))]

/-- Replaying transactions lands their writes in order. -/
theorem replayWrites_eq_foldl : (b : Bus) → (ts : List Transaction) → replayWrites b ts = (writesOf ts).foldl Bus.land b
  | _, [] => rfl
  | b, .read _ _ :: ts => replayWrites_eq_foldl b ts
  | b, .write a v :: ts => by
    rw [replayWrites_write, writesOf_write, List.foldl_cons, replayWrites_eq_foldl _ ts]

theorem readOperation_bus {m : Mnemonic} {f : Byte → State → State} (h : readOperation m = some f) (v : Byte)
    (t : State) : (f v t).bus = t.bus := by
  cases m <;> cases h <;> rfl

/-- Of the operations without an operand PHA, PHP and BRK push, and their transactions list the bytes pushed. -/
theorem impliedOperation_bus {m : Mnemonic} {f : State → State} (h : impliedOperation m = some f) (o : Operand)
    (s : State) : (f (s.advance o.mode.length)).bus = (writesOf (stackTransactions m o s)).foldl Bus.land s.bus := by
  cases m <;> cases h
  case pha | php | brk => simp [stackTransactions, pushTransactions]
  case pla | plp | rts | rti => simp [stackTransactions, loadPulled]
  all_goals rfl

theorem Stored.bus {o : Operand} {s t u : State} {v : Byte} (h : Stored o s v t u) :
    u.bus = (writesOf (storeTransactions o v s)).foldl Bus.land t.bus := by
  cases h with
  | acc ho => subst ho; rfl
  | ram hea ha =>
    rw [storeTransactions, hea]
    exact (t.bus.land_of_lt v ha).symm
  | dropped hea ha _ =>
    rw [storeTransactions, hea]
    exact (t.bus.land_of_ge v ha).symm

/-- What an operation that completes leaves behind the bus is what the writes of its transactions leave there. -/
theorem Completed.bus {m : Mnemonic} {o : Operand} {s t : State} (h : Completed m o s t) :
    t.bus = (writesOf (formTransactions m o s)).foldl Bus.land s.bus := by
  cases h with
  | read hf _ => rw [writesOf_read_form hf, readOperation_bus hf]; rfl
  | implied hf => rw [writesOf_implied_form hf, impliedOperation_bus hf]
  | store hv hs => rw [writesOf_store_form hv, hs.bus]; rfl
  | modify hop hv hs => rw [writesOf_modify_form hop hv, State.setFlags_bus, hs.bus]; rfl
  | call hj hea ht =>
    subst hj ht
    simp [writesOf_jsr_form hea, State.pushWord]
  | jump hj _ => rw [writesOf_jump_form hj]; rfl
  | stay hj => rw [writesOf_jump_form hj]; rfl

/-- A step that completes has run an entry of the table, and its transactions are that entry's. -/
theorem runTransactions_of_ok {p : Params} {s t : State} {n : Nat} (h : runStep p s = .ok n t) :
    ∃ e : Entry, runTransactions p s = formTransactions e.mnemonic (s.fetchOperand e.mode) s ∧
      Completed e.mnemonic (s.fetchOperand e.mode) s t := by
  obtain ⟨e, he, hc⟩ := runStep_ok h
  refine ⟨e, ?_, hc⟩
  cases hi : p.implemented.contains e.mnemonic with
  | true => simp only [runTransactions, he, hi, if_true]
  | false =>
    simp only [runStep, he, hi, Bool.false_eq_true, if_false] at h
    cases h

theorem runStep_bus {p : Params} {s t : State} {n : Nat} (h : runStep p s = .ok n t) :
    t.bus = replayWrites s.bus (runTransactions p s) := by
  obtain ⟨e, hts, hc⟩ := runTransactions_of_ok h
  rw [hts, replayWrites_eq_foldl, hc.bus]

/-- Settles O58: what the operation of a completed step leaves, its writes leave. -/
theorem transactionsExplainTheMemoryAfterAStep : Obligations.TransactionsExplainTheMemoryAfterAStep := by
  refine ⟨fun s t h => ?_, fun _ _ _ _ h => runStep_bus h⟩
  obtain ⟨n, hn⟩ := step_next h
  exact runStep_bus hn

/-! ## A byte written is read back -/

/-- No two of the writes name one RAM cell. -/
def DistinctCells (ws : List (Addr × Byte)) : Prop := ws.Pairwise fun x y => ramCell x.1 ≠ ramCell y.1

theorem distinctCells_nil : DistinctCells [] := List.Pairwise.nil

theorem distinctCells_singleton (w : Addr × Byte) : DistinctCells [w] := List.pairwise_singleton _ w

theorem distinctCells_storeTransactions (o : Operand) (v : Byte) (s : State) :
    DistinctCells (writesOf (storeTransactions o v s)) := by
  rw [storeTransactions]
  cases o.ea s with
  | none => exact distinctCells_nil
  | some a => exact distinctCells_singleton _

/-- Pushes go to different cells as SP goes down (R127). -/
theorem distinctCells_two_pushes (sp v w : Byte) :
    DistinctCells [(stackAddress sp, v), (stackAddress (sp - 1#8), w)] := by
  simp only [DistinctCells, List.pairwise_pair, ramCell_stackAddress]
  bv_omega

theorem distinctCells_three_pushes (sp u v w : Byte) :
    DistinctCells [(stackAddress sp, u), (stackAddress (sp - 1#8), v), (stackAddress (sp - 1#8 - 1#8), w)] := by
  refine List.pairwise_cons.2 ⟨?_, distinctCells_two_pushes (sp - 1#8) v w⟩
  simp only [List.mem_cons, List.not_mem_nil, or_false, forall_eq_or_imp, forall_eq, ramCell_stackAddress]
  constructor <;> bv_omega

theorem distinctCells_implied_form {m : Mnemonic} {f : State → State} (h : impliedOperation m = some f) (o : Operand)
    (s : State) : DistinctCells (writesOf (stackTransactions m o s)) := by
  cases m <;> cases h
  case pha | php => exact distinctCells_singleton _
  case brk => exact distinctCells_three_pushes s.sp _ _ _
  all_goals exact distinctCells_nil

/-- No operation writes one cell twice. -/
theorem Completed.distinctCells {m : Mnemonic} {o : Operand} {s t : State} (h : Completed m o s t) :
    DistinctCells (writesOf (formTransactions m o s)) := by
  cases h with
  | read hf _ => rw [writesOf_read_form hf]; exact distinctCells_nil
  | implied hf => rw [writesOf_implied_form hf]; exact distinctCells_implied_form hf o s
  | store hv _ => rw [writesOf_store_form hv]; exact distinctCells_storeTransactions _ _ _
  | modify hop hv _ => rw [writesOf_modify_form hop hv]; exact distinctCells_storeTransactions _ _ _
  | call hj hea _ => rw [hj, writesOf_jsr_form hea]; exact distinctCells_two_pushes _ _ _
  | jump hj _ => rw [writesOf_jump_form hj]; exact distinctCells_nil
  | stay hj => rw [writesOf_jump_form hj]; exact distinctCells_nil

theorem Bus.peek_land_same {b : Bus} {a c : Addr} (v : Byte) (hb : b.wf = true) (h : SameCell c a) :
    (b.land (a, v)).peek c = v := by
  obtain ⟨hc, ha, he⟩ := h
  rw [b.land_of_lt v ha, b.peek_writeRam_same v hb hc he]

theorem Bus.peek_land_other (b : Bus) {w : Addr × Byte} {c : Addr} (h : ramCell w.1 ≠ ramCell c) :
    (b.land w).peek c = b.peek c := by
  unfold Bus.land
  split
  · rw [ramCell_eq, ramCell_eq] at h
    exact b.peek_writeRam_other _ fun _ => h.symm
  · rfl

theorem Bus.peek_foldl_land_other {c : Addr} : {ws : List (Addr × Byte)} → (b : Bus) →
    (∀ w ∈ ws, ramCell w.1 ≠ ramCell c) → (ws.foldl Bus.land b).peek c = b.peek c
  | [], _, _ => rfl
  | w :: ws, b, h => by
    obtain ⟨hw, hws⟩ := List.forall_mem_cons.1 h
    rw [List.foldl_cons, Bus.peek_foldl_land_other _ hws, b.peek_land_other hw]

/-- Writes to different cells leave each its byte. -/
theorem Bus.peek_foldl_land {a c : Addr} {v : Byte} (h : SameCell c a) : {ws : List (Addr × Byte)} → {b : Bus} →
    b.wf = true → DistinctCells ws → (a, v) ∈ ws → (ws.foldl Bus.land b).peek c = v
  | w :: ws, b, hb, hd, hmem => by
    obtain ⟨hw, hws⟩ := List.pairwise_cons.1 hd
    rw [List.foldl_cons]
    rcases List.mem_cons.1 hmem with rfl | hmem
    · have hcell : ramCell c = ramCell a := by
        obtain ⟨-, -, he⟩ := h
        rw [ramCell_eq, ramCell_eq, he]
      rw [Bus.peek_foldl_land_other _ fun x hx => hcell ▸ (hw x hx).symm, Bus.peek_land_same v hb h]
    · exact Bus.peek_foldl_land h (Bus.land_wf w hb) hws hmem

/-- On a canonical bus, a byte an operation has written is the byte stored in its cell when it completes. -/
theorem Completed.peek_written {m : Mnemonic} {o : Operand} {s t : State} (h : Completed m o s t) (hs : s.bus.wf = true)
    {a c : Addr} {v : Byte} (hw : .write a v ∈ formTransactions m o s) (hc : SameCell c a) : t.bus.peek c = v := by
  rw [h.bus]
  exact Bus.peek_foldl_land hc hs h.distinctCells (mem_writesOf.2 hw)

/-- What an instruction that stores is: a store or a read-modify-write of memory, a push, or a call. -/
theorem Stores.cases {i : Instr} (h : Stores i) (s : State) :
    (∃ v m, storedRegister i.mnemonic s = some v ∧ i.operand = .mem m) ∨
    (∃ op m, modifyOperation i.mnemonic = some op ∧ i.operand = .mem m) ∨
    i.mnemonic ∈ [Mnemonic.pha, .php, .brk] ∨ (i.mnemonic = .jsr ∧ ∃ m, i.operand = .mem m) := by
  rcases exec_cases i s with ⟨f, v, hf, -, -⟩ | ⟨v, m, hv, ho, -⟩ | ⟨op, hop, ho, -⟩ | ⟨op, m, hop, ho, -⟩ |
    ⟨f, hf, -, -⟩ | ⟨off, hb, -, -⟩ | ⟨w, ⟨rfl, -⟩ | ⟨rfl, -⟩ | ⟨rfl, -⟩⟩
  · exfalso
    revert h hf
    simp only [Stores]
    cases i.mnemonic <;> simp [readOperation, modifiers]
  · exact .inl ⟨v, m, hv, ho⟩
  · exfalso
    revert h hop
    simp only [Stores, ho]
    cases i.mnemonic <;> simp [modifyOperation]
  · exact .inr (.inl ⟨op, m, hop, ho⟩)
  · refine .inr (.inr (.inl ?_))
    revert h hf
    simp only [Stores]
    cases i.mnemonic <;> simp [impliedOperation, modifiers]
  · exfalso
    revert h hb
    simp only [Stores]
    cases i.mnemonic <;> simp [isBranch, modifiers]
  · simp [Stores, modifiers, Instr.mnemonic] at h
  · simp [Stores, modifiers, Instr.mnemonic] at h
  · exact .inr (.inr (.inr ⟨rfl, .abs w, rfl⟩))

/-- An instruction that stores makes a write transaction (R126). -/
theorem Stores.exists_write {i : Instr} (h : Stores i) (s : State) : ∃ a v, .write a v ∈ instrTransactions i s := by
  simp only [instrTransactions, ← mem_writesOf]
  rcases h.cases s with ⟨v, m, hv, ho⟩ | ⟨op, m, hop, ho⟩ | hp | ⟨hj, m, ho⟩
  · rw [writesOf_store_form hv, ho]
    exact ⟨_, _, List.mem_singleton_self _⟩
  · rw [ho, writesOf_modify_form hop (v := m.load s) rfl]
    exact ⟨_, _, List.mem_singleton_self _⟩
  · simp only [List.mem_cons, List.not_mem_nil, or_false] at hp
    rcases hp with hp | hp | hp <;> rw [hp, writesOf_implied_form rfl] <;> exact ⟨_, _, List.mem_cons_self⟩
  · rw [hj, ho, writesOf_jsr_form rfl]
    exact ⟨_, _, List.mem_cons_self⟩

/-- Settles O59, from what the writes of a completed instruction leave. -/
theorem storeIsSeenByTheNextFetch : Obligations.StoreIsSeenByTheNextFetch := by
  refine ⟨fun i s hs => hs.exists_write s, fun i s t a v hwf h hw ha => ?_⟩
  have hread (c : Addr) (hc : SameCell c a) : t.bus.peek c = v := (exec_next h).peek_written hwf hw hc
  refine ⟨hread, fun hpc => ?_⟩
  have ⟨hlt, _, _⟩ := hpc
  rw [State.opcodeByte, State.read, Bus.read_ram _ _ _ hlt, ← Bus.peek_ram _ hlt, hread t.pc hpc]

end Sys2Proof.Machine
end

section
/-! PROOFS, spec/30_encoding.md: what an encoding is made of, the two round trips between instructions and bytes, the bytes
that encode no instruction, and the tables a machine may have. -/

namespace Sys2Proof

/-! ## What a table holds, and what it encodes -/

/-- A table is well-formed when its entries meet R88 and no byte stands twice (U9). -/
theorem OpcodeTable.wf_iff {t : OpcodeTable} :
    t.wf = true ↔ (∀ e ∈ t, e.wf = true) ∧ (t.map Entry.opcode).Nodup := by
  rw [OpcodeTable.wf, Bool.and_eq_true, List.all_eq_true, OpcodeTable.distinct_iff]

theorem OpcodeTable.lookup_eq_none_iff {t : OpcodeTable} {op : Byte} : t.lookup op = none ↔ op ∉ t.map Entry.opcode := by
  simp [OpcodeTable.lookup]

/-- The entry a table holds for an instruction stands in it under the instruction's mnemonic and mode. -/
theorem OpcodeTable.entryOf_spec {t : OpcodeTable} {i : Instr} {e : Entry} (h : t.entryOf i = some e) :
    e ∈ t ∧ e.mnemonic = i.mnemonic ∧ e.mode = i.mode :=
  ⟨List.mem_of_find?_eq_some h, by simpa using List.find?_some h⟩

/-- An encoding is the opcode byte of the instruction's entry and the instruction's operand bytes (R80). -/
theorem encodeWith_eq_some_iff {t : OpcodeTable} {i : Instr} {bytes : List Byte} :
    encodeWith t i = some bytes ↔ ∃ e, t.entryOf i = some e ∧ e.opcode :: i.operand.bytes = bytes :=
  Option.map_eq_some_iff

/-- The default table encodes every instruction. -/
theorem encodeWith_mos6502 (i : Instr) : encodeWith .mos6502 i = some (encode i) := by
  have hrow : (OpcodeTable.mos6502.entryOf i).isSome = true := by cases i <;> rfl
  obtain ⟨e, he⟩ := Option.isSome_iff_exists.1 hrow
  simp [encode, encodeWith, he]

/-- The default table has one entry for a mnemonic and a mode (R89). -/
theorem OpcodeTable.entryOf_of_mem_mos6502 {e : Entry} {i : Instr} (h : e ∈ OpcodeTable.mos6502)
    (hm : e.mnemonic = i.mnemonic) (hmode : e.mode = i.mode) : OpcodeTable.mos6502.entryOf i = some e := by
  have hfirst : OpcodeTable.mos6502.all (fun e => OpcodeTable.mos6502.find? (fun e' =>
      e'.mnemonic == e.mnemonic && e'.mode == e.mode) == some e) = true := by decide
  have := List.all_eq_true.1 hfirst e h
  rw [beq_iff_eq, hm, hmode] at this
  exact this

/-! ## The two round trips -/

/-- What the decoder answers when the opcode byte has an entry and the operand bytes it needs are there (R86). -/
theorem decodeWith_cons {t : OpcodeTable} {op : Byte} {r : List Byte} {e : Entry} {i : Instr} (hl : t.lookup op = some e)
    (hlen : e.length ≤ r.length + 1) (ha : assemble e.mnemonic e.mode (r.getD 0 0#8) (r.getD 1 0#8) = some i) :
    decodeWith t (op :: r) = .ok (i, r.drop (e.length - 1)) := by
  simp only [decodeWith, hl, if_neg (Nat.not_lt.2 hlen), ha]

/-- The decoder of a well-formed table inverts its encoder. -/
theorem decodeWith_encodeWith {t : OpcodeTable} {i : Instr} {bytes : List Byte} (ht : t.wf = true)
    (h : encodeWith t i = some bytes) (rest : List Byte) : decodeWith t (bytes ++ rest) = .ok (i, rest) := by
  obtain ⟨e, he, rfl⟩ := encodeWith_eq_some_iff.1 h
  obtain ⟨hmem, hm, hmode⟩ := OpcodeTable.entryOf_spec he
  obtain ⟨hwf, hdistinct⟩ := OpcodeTable.wf_iff.1 ht
  have hlookup := OpcodeTable.lookup_of_mem ((OpcodeTable.distinct_iff t).2 hdistinct) hmem
  have hlen : e.length = i.operand.bytes.length + 1 := by
    rw [(e.wf_iff.1 (hwf e hmem)).1, hmode]
    exact i.length_eq
  rw [List.cons_append, decodeWith_cons hlookup (by simp [hlen]) (by rw [hm, hmode]; exact assemble_self i rest)]
  simp [hlen]

/-- The operand bytes of a mode's operand are the bytes it is made of, as many as the mode has (R81 to R84). -/
theorem operandOf_bytes (mode : Mode) (b1 b2 : Byte) : (operandOf mode b1 b2).bytes = [b1, b2].take (mode.length - 1) := by
  cases mode <;> simp [operandOf, Operand.bytes, Mode.length]

/-- The operand bytes taken from the front of a long enough sequence, and what the decoder leaves of it, are the sequence. -/
theorem operandOf_bytes_append_drop {mode : Mode} {r : List Byte} (h : mode.length ≤ r.length + 1) :
    (operandOf mode (r.getD 0 0#8) (r.getD 1 0#8)).bytes ++ r.drop (mode.length - 1) = r := by
  have htake : [r.getD 0 0#8, r.getD 1 0#8].take (mode.length - 1) = r.take (mode.length - 1) := by
    rcases r with _ | ⟨a, _ | ⟨b, r⟩⟩ <;> revert h <;> cases mode <;> simp [Mode.length]
  rw [operandOf_bytes, htake, List.take_append_drop]

/-- Settles O1: the entry that encodes an instruction is the one its opcode byte looks up. -/
theorem encodeThenDecodeReturnsTheInstruction : Obligations.EncodeThenDecodeReturnsTheInstruction :=
  ⟨fun i => decodeWith_encodeWith Params.core.table_wf (encodeWith_mos6502 i),
    fun _ _ _ rest ht h => decodeWith_encodeWith ht h rest⟩

/-- Settles O2: the entry looked up is the one entry of the mnemonic and mode decoded. -/
theorem decodeThenEncodeReturnsTheBytes : Obligations.DecodeThenEncodeReturnsTheBytes := by
  intro bytes i rest h
  obtain ⟨op, e, r, rfl, hl, hlen, ha, rfl⟩ := decode_spec h
  obtain ⟨hmem, rfl⟩ := OpcodeTable.lookup_spec hl
  obtain ⟨hm, hmode⟩ := assemble_spec ha
  have hentry := OpcodeTable.entryOf_of_mem_mos6502 hmem hm.symm hmode.symm
  have hlength : e.length = e.mode.length := (e.wf_iff.1 (OpcodeTable.wf_of_mem_mos6502 hmem)).1
  rw [hlength] at hlen ⊢
  simp only [encode, encodeWith, hentry, Option.map_some, Option.getD_some, List.cons_append, assemble_operand ha,
    operandOf_bytes_append_drop hlen]

/-- Settles O3: each byte sequence is evaluated. -/
theorem workedEncodingsDecodeAsTheSpecWritesThem : Obligations.WorkedEncodingsDecodeAsTheSpecWritesThem :=
  ⟨rfl, rfl, rfl, rfl, rfl, rfl, rfl, rfl, rfl, rfl, rfl, rfl, rfl⟩

/-! ## The tables a machine may have -/

/-- Settles O4: the table is evaluated. -/
theorem defaultTableIsWellFormedAndCounted : Obligations.DefaultTableIsWellFormedAndCounted :=
  ⟨Params.core.table_wf, rfl, rfl⟩

/-- Parameters are made of the well-formed tables and of no others. -/
theorem Params.exists_make_iff {t : OpcodeTable} {implemented : List Mnemonic} :
    (∃ p, Params.make t implemented = .ok p) ↔ t.wf = true := by
  rcases Params.make_spec t implemented with ⟨ht, h⟩ | ⟨ht, h⟩ <;> simp [ht, h]

/-- Settles O60, from what the check of a table answers. -/
theorem onlyWellFormedTablesAreAccepted : Obligations.OnlyWellFormedTablesAreAccepted := by
  refine ⟨fun t implemented => ⟨?_, fun p hp => ?_, fun hno => ?_⟩, fun p => dif_pos p.table_wf⟩
  · simp only [Params.exists_make_iff, OpcodeTable.wf_iff, Entry.wf_iff]
  · rcases Params.make_spec t implemented with ⟨_, h⟩ | ⟨-, h⟩ <;> rw [h] at hp <;> cases hp
    exact ⟨rfl, rfl⟩
  · rcases Params.make_spec t implemented with ⟨_, h⟩ | ⟨-, h⟩
    · exact absurd h (hno _)
    · exact h

end Sys2Proof

namespace Sys2Proof.Machine

/-! ## The bytes that encode no instruction -/

/-- A set of bytes as a number: bit `b` is set for each byte `b` of the list. -/
def byteMask (l : List Byte) : Nat := l.foldr (fun b mask => 2 ^ b.toNat ||| mask) 0

theorem byteMask_append (l l' : List Byte) : byteMask (l ++ l') = byteMask l ||| byteMask l' := by
  induction l with
  | nil => exact (Nat.zero_or _).symm
  | cons b l ih => exact (congrArg (2 ^ b.toNat ||| ·) ih).trans (Nat.or_assoc _ _ _).symm

theorem testBit_byteMask (op : Byte) (l : List Byte) : (byteMask l).testBit op.toNat = decide (op ∈ l) := by
  induction l with
  | nil => simp [byteMask]
  | cons b l ih =>
    rw [byteMask, List.foldr_cons, ← byteMask, Nat.testBit_lor, Nat.testBit_two_pow, ih]
    simp only [BitVec.toNat_inj, List.mem_cons, Bool.decide_or, eq_comm]

/-- The bytes without an entry in the default table are those R90 lists: of R90's bytes and the opcodes of R89, as sets of
bits, exactly one holds each of the 256. -/
theorem mem_unassignedBytes_iff (op : Byte) : op ∈ unassignedBytes ↔ OpcodeTable.mos6502.lookup op = none := by
  have hmask : byteMask unassignedBytes ^^^ byteMask (OpcodeTable.mos6502.map Entry.opcode) = 2 ^ 256 - 1 := by
    simp only [OpcodeTable.mos6502, List.map_append, byteMask_append]
    decide
  have hbit : (byteMask unassignedBytes ^^^ byteMask (OpcodeTable.mos6502.map Entry.opcode)).testBit op.toNat = true := by
    rw [hmask, Nat.testBit_two_pow_sub_one, decide_eq_true op.isLt]
  rw [Nat.testBit_xor, testBit_byteMask, testBit_byteMask] at hbit
  rw [OpcodeTable.lookup_eq_none_iff, ← xor_iff_iff_not, xor_iff_not_iff]
  simpa using hbit

/-- A lookup miss ends the step with nothing changed, whatever the table (R102, R221). -/
theorem runStep_of_miss {p : Params} {s : State} (h : p.table.lookup s.opcodeByte = none) :
    runStep p s = .fault (.illegalOpcode s.opcodeByte s.pc s) := by
  simp only [runStep, h]

/-- Settles O5: a byte R90 lists is a lookup miss, and the bytes fetched behind any other decode. -/
theorem unassignedOpcodeFaultsWithStateUnchanged : Obligations.UnassignedOpcodeFaultsWithStateUnchanged := by
  refine ⟨fun _ _ => runStep_of_miss, rfl, fun s => ⟨fun hmem => ?_, fun hmem => ?_⟩⟩
  · have hmiss := (mem_unassignedBytes_iff _).1 hmem
    have hrun := runStep_of_miss (p := .core) hmiss
    exact ⟨by rw [step, hrun, StepResult.outcome], stepTransactions_of_miss hmiss⟩
  · obtain ⟨e, he⟩ := Option.ne_none_iff_exists'.1 (mt (mem_unassignedBytes_iff _).2 hmem)
    obtain ⟨i, hi, -⟩ := decode_fetchBytes he
    exact ⟨i, _, hi⟩

end Sys2Proof.Machine
end

section
/-! PROOFS, spec/40_step_and_addressing.md: addresses and operands, the stack, what a completed instruction leaves alone, the
decoded instruction of a step, its cycle count, and the order and number of its bus transactions. -/

namespace Sys2Proof.Machine

/-! ## Addresses and operands -/

theorem zext16_eq_ofNat (b : Byte) : zext16 b = BitVec.ofNat 16 b.toNat := by
  rw [← zext16_toNat, BitVec.ofNat_toNat, BitVec.setWidth_eq]

theorem add_zext16_toNat (w : Addr) (b : Byte) : (w + zext16 b).toNat = (w.toNat + b.toNat) % 65536 := by
  rw [BitVec.toNat_add, zext16_toNat]

/-- Sign extension is reduction of the signed value modulo 65536 (R8). -/
theorem sext16_toNat (b : Byte) : ((sext16 b).toNat : Int) = b.toInt % 65536 := by
  rw [sext16, BitVec.signExtend, BitVec.toNat_ofInt]
  omega

/-- The target of a branch as a number: the address after the branch plus the signed offset (R117). -/
theorem relTarget_toNat (s : State) (off : Byte) :
    ((relTarget s off).toNat : Int) = (s.pc.toNat + 2 + off.toInt) % 65536 := by
  have hoff := sext16_toNat off
  rw [relTarget, BitVec.toNat_add, BitVec.toNat_add, BitVec.toNat_ofNat]
  omega

/-- A zero-page pointer, its low byte first and its second address wrapping in the page (R63). -/
theorem State.readWordZp_toNat_mod (s : State) (zp : Byte) :
    (s.readWordZp zp).toNat =
      (s.bus.ram.read zp.toNat).toNat + 256 * (s.bus.ram.read ((zp.toNat + 1) % 256)).toNat := by
  have hnext : (zp + 1#8).toNat = (zp.toNat + 1) % 256 := BitVec.toNat_add zp 1#8
  rw [State.readWordZp_toNat, hnext, Nat.add_comm, Nat.mul_comm]

/-- Settles O31, mode by mode. -/
theorem effectiveAddressOfEveryMode : Obligations.EffectiveAddressOfEveryMode := by
  intro s b v off w
  refine ⟨zext16_eq_ofNat b, ?zpx, ?zpy, rfl, ?base, ⟨add_zext16_toNat w s.x, rfl⟩, ⟨add_zext16_toNat w s.y, rfl⟩, ?izx,
    ⟨s.readWordZp b, rfl, s.readWordZp_toNat_mod b, add_zext16_toNat _ s.y⟩,
    ⟨s.pc + 1#16, rfl, BitVec.toNat_add s.pc 1#16⟩, ⟨relTarget s off, rfl, relTarget_toNat s off⟩,
    ⟨indTarget s w, w + 1#16, rfl, BitVec.toNat_add w 1#16, ?ind⟩⟩
  case zpx | zpy => rw [MemOperand.ea, zext16_toNat, BitVec.toNat_add]
  case base => simp [MemOperand.base]
  case izx => rw [MemOperand.ea, State.readWordZp_toNat_mod, BitVec.toNat_add, Nat.mod_add_mod]
  case ind => rw [indTarget, State.readWord_toNat, Nat.add_comm, Nat.mul_comm]

/-- The operand of the instruction decoded is made of the bytes fetched (R84). -/
theorem operand_of_decode {s : State} {i : Instr} {rest : List Byte} (h : decode s.fetchBytes = .ok (i, rest)) :
    i.operand = s.fetchOperand i.mode := by
  obtain ⟨_, e, r, hb, -, -, ha, -⟩ := decode_spec h
  obtain ⟨-, rfl⟩ := List.cons.inj hb
  obtain ⟨-, hmode⟩ := assemble_spec ha
  rw [hmode]
  exact assemble_operand ha

theorem operandOf_eq_imm {mode : Mode} {b1 b2 v : Byte} (h : operandOf mode b1 b2 = .imm v) : v = b1 := by
  cases mode <;> cases h
  rfl

/-- Settles O32: an immediate operand is the first byte after the opcode. -/
theorem loadOperandReadsThroughTheAddress : Obligations.LoadOperandReadsThroughTheAddress :=
  ⟨fun _ _ _ => ⟨rfl, rfl, rfl⟩, fun _ _ _ _ h hv => operandOf_eq_imm ((operand_of_decode h).symm.trans hv)⟩

/-! ## The stack -/

theorem stackAddress_eq_ofNat (sp : Byte) : stackAddress sp = BitVec.ofNat 16 (0x100 + sp.toNat) := by
  rw [← stackAddress_toNat, BitVec.ofNat_toNat, BitVec.setWidth_eq]

theorem Bus.writeRam_stack (b : Bus) (sp v : Byte) :
    b.writeRam (stackAddress sp) v = { b with ram := b.ram.write (0x100 + sp.toNat) v } := by
  rw [Bus.writeRam, ramCell_stackAddress]

theorem Bus.peek_stack (b : Bus) (sp : Byte) : b.peek (stackAddress sp) = b.ram.read (0x100 + sp.toNat) := by
  rw [b.peek_ram (stackAddress_lt sp), ← ramCell_eq, ramCell_stackAddress]

/-- On a canonical bus a pull gives back what was pushed, and SP as it was (R127, R128). -/
theorem State.pull_push {s : State} (hs : s.bus.wf = true) (v : Byte) :
    (s.push v).pull.1 = v ∧ (s.push v).pull.2.sp = s.sp := by
  have hsp : s.sp - 1#8 + 1#8 = s.sp := BitVec.sub_add_cancel s.sp 1#8
  constructor
  · rw [State.pull_value, State.push_sp, hsp, ← Bus.peek_stack, State.push_bus]
    exact s.bus.peek_writeRam_same v hs (stackAddress_lt s.sp) rfl
  · rw [State.pull_sp, State.push_sp, hsp]

/-- Settles O34: the stack page is RAM. -/
theorem pushAndPullUseTheStackPage : Obligations.PushAndPullUseTheStackPage := by
  intro s v
  refine ⟨⟨s.setBus (s.bus.writeRam (stackAddress s.sp) v), ?_, rfl, ?_⟩, ⟨rfl, ?_⟩, fun hs => State.pull_push hs v⟩
  · rw [← stackAddress_eq_ofNat, State.push_eq_write]
  · rw [Bus.writeRam_stack]
    rfl
  · have hnext : (s.sp + 1#8).toNat = (s.sp.toNat + 1) % 256 := BitVec.toNat_add s.sp 1#8
    rw [← hnext, ← stackAddress_eq_ofNat, Bus.peek_stack, State.pull_value]

/-! ## What a completed instruction leaves alone -/

theorem mem_modifiers_iff {m : Mnemonic} : m ∈ modifiers ↔ (modifyOperation m).isSome = true := by
  cases m <;> decide

/-- An operation without an operand leaves the bus unless it is a push. -/
theorem impliedOperation_bus_of_not_push {m : Mnemonic} {f : State → State} (h : impliedOperation m = some f)
    (hm : m ∉ [Mnemonic.pha, .php, .brk]) (t : State) : (f t).bus = t.bus := by
  cases m <;> cases h
  case pha | php | brk => exact absurd (by decide) hm
  case rti => exact t.returnFromTrap_bus
  all_goals rfl

theorem stores_of_storedRegister {i : Instr} {s : State} {v : Byte} (h : storedRegister i.mnemonic s = some v) :
    Stores i := by
  refine .inl ?_
  revert h
  cases i.mnemonic <;> simp [storedRegister]

/-- An instruction that is no store, no read-modify-write of memory and no push leaves what is behind the bus. -/
theorem Completed.bus_of_not_stores {i : Instr} {s t : State} (h : Completed i.mnemonic i.operand s t)
    (hs : ¬ Stores i) : t.bus = s.bus := by
  have hlist : i.mnemonic ∉ [Mnemonic.sta, .stx, .sty, .pha, .php, .jsr, .brk] := fun hm => hs (.inl hm)
  cases h with
  | read hf _ => exact readOperation_bus hf _ _
  | implied hf =>
    have hsub : [Mnemonic.pha, .php, .brk] ⊆ [.sta, .stx, .sty, .pha, .php, .jsr, .brk] := by decide
    exact impliedOperation_bus_of_not_push hf (fun hm => hlist (hsub hm)) _
  | store hv _ => exact absurd (stores_of_storedRegister hv) hs
  | modify hop _ hst =>
    have hacc : i.operand = .acc :=
      not_not.1 fun ho => hs (.inr ⟨mem_modifiers_iff.2 (Option.isSome_of_eq_some hop), ho⟩)
    rw [hacc] at hst
    exact hst.bus
  | call hj _ _ => exact absurd (by rw [hj]; decide) hlist
  | jump _ _ => rfl
  | stay _ => rfl

/-- Settles O18, shape of operation by shape of operation. -/
theorem formsThatStoreNothingLeaveMemoryAlone : Obligations.FormsThatStoreNothingLeaveMemoryAlone := by
  intro i s t h hs
  have hbus : t.bus = s.bus := (exec_next h).bus_of_not_stores hs
  exact ⟨fun a => by rw [hbus], hbus⟩

theorem storedRegister_of_mem {m : Mnemonic} (h : m ∈ [Mnemonic.sta, .stx, .sty]) (s : State) :
    (storedRegister m s).isSome = true := by
  simp only [List.mem_cons, List.not_mem_nil, or_false] at h
  rcases h with rfl | rfl | rfl <;> rfl

/-- What an instruction that writes through its effective address leaves when it completes: PC past it, what the write left
behind the bus, and the flags, which a store keeps. -/
theorem exec_write_next {i : Instr} {s t : State} {m : MemOperand} (ho : i.operand = .mem m)
    (hm : i.mnemonic ∈ [Mnemonic.sta, .stx, .sty] ∨ i.mnemonic ∈ modifiers) (h : exec i s = .next t) :
    ∃ v f, t = ((s.advance i.length).setBus (s.bus.land (m.ea s, v))).setFlags f ∧
      (i.mnemonic ∉ modifiers → f = s.flags) := by
  obtain ⟨v, f, hf, hcases⟩ :=
    exec_write_cases i s m ho (hm.imp (storedRegister_of_mem · s) mem_modifiers_iff.1)
  refine ⟨v, f, ?_, fun hno => ?_⟩
  · rcases hcases with ⟨ha, e⟩ | ⟨-, e⟩ | ⟨ha, -, -, e⟩ | ⟨ha, -, -, e | e⟩ <;> rw [h] at e <;> cases e
    · rw [s.bus.land_of_lt v ha]
    · rw [s.bus.land_of_ge v ha]; rfl
    · rw [s.bus.land_of_ge v ha]; rfl
  · rcases hf with ⟨-, hf⟩ | ⟨op, hop, -, -⟩
    · exact hf
    · exact absurd (mem_modifiers_iff.2 (Option.isSome_of_eq_some hop)) hno

/-- A write lands in the RAM cell it names and nowhere else (R51). -/
theorem Bus.peek_land_of_not_sameCell (b : Bus) {a c : Addr} (v : Byte) (h : ¬ SameCell c a) :
    (b.land (a, v)).peek c = b.peek c := by
  rcases Nat.lt_or_ge a.toNat 0x2000 with ha | ha
  · rw [b.land_of_lt v ha]
    exact b.peek_writeRam_other v fun hc he => h ⟨hc, ha, he⟩
  · rw [b.land_of_ge v ha]

theorem Bus.land_cart (b : Bus) (w : Addr × Byte) : (b.land w).cart = b.cart := by
  unfold Bus.land
  split <;> rfl

theorem Bus.land_extra (b : Bus) (w : Addr × Byte) : (b.land w).extra = b.extra := by
  unfold Bus.land
  split <;> rfl

/-- Settles O19, from what the one write of the instruction leaves. -/
theorem memoryWritersChangeOnlyTheAddressedCell : Obligations.MemoryWritersChangeOnlyTheAddressedCell := by
  intro i s t m ho hm h
  obtain ⟨v, f, rfl, hf⟩ := exec_write_next ho hm h
  exact ⟨fun a ha => s.bus.peek_land_of_not_sameCell v ha, rfl, rfl, rfl, rfl, rfl, s.bus.land_cart _, s.bus.land_extra _,
    hf⟩

/-- `t` is `s` after `n` pushes, but for PC and the flags: SP is `n` lower, and only the `n` stack bytes from `0x0100 + SP`
down may have changed (R127). -/
structure Pushed (n : Nat) (s t : State) : Prop where
  peek : ∀ a : Addr, (∀ k < n, ¬ SameCell a (stackAddress (s.sp - BitVec.ofNat 8 k))) → t.bus.peek a = s.bus.peek a
  sp : t.sp = s.sp - BitVec.ofNat 8 n
  a : t.a = s.a
  x : t.x = s.x
  y : t.y = s.y
  cart : t.bus.cart = s.bus.cart
  extra : t.bus.extra = s.bus.extra

theorem pushed_advance (s : State) (n : Nat) : Pushed 0 s (s.advance n) :=
  ⟨fun _ _ => rfl, (BitVec.sub_zero s.sp).symm, rfl, rfl, rfl, rfl, rfl⟩

/-- A push lowers SP once more and writes the byte SP named. -/
theorem Pushed.push {n : Nat} {s t : State} (h : Pushed n s t) (v : Byte) : Pushed (n + 1) s (t.push v) where
  peek a ha := by
    rw [State.push_bus, ← Bus.land_stack, Bus.peek_land_of_not_sameCell _ v (h.sp ▸ ha n n.lt_succ_self)]
    exact h.peek a fun k hk => ha k (Nat.lt_succ_of_lt hk)
  sp := by rw [State.push_sp, h.sp, BitVec.sub_sub, ← BitVec.ofNat_add]
  a := h.a
  x := h.x
  y := h.y
  cart := h.cart
  extra := h.extra

theorem Pushed.setPc {n : Nat} {s t : State} (h : Pushed n s t) (w : Addr) : Pushed n s (t.setPc w) :=
  ⟨h.peek, h.sp, h.a, h.x, h.y, h.cart, h.extra⟩

theorem Pushed.setFlags {n : Nat} {s t : State} (h : Pushed n s t) (f : Flags) : Pushed n s (t.setFlags f) :=
  ⟨h.peek, h.sp, h.a, h.x, h.y, h.cart, h.extra⟩

theorem Pushed.pushWord {n : Nat} {s t : State} (h : Pushed n s t) (w : Addr) : Pushed (n + 2) s (t.pushWord w) :=
  (h.push (hi w)).push (lo w)

theorem Pushed.takeTrap {n : Nat} {s t : State} (h : Pushed n s t) : Pushed (n + 3) s t.takeTrap :=
  (((h.pushWord _).push _).setFlags _).setPc _

/-- PHA and PHP push one byte, JSR two and BRK three; BRK sets I, and nothing else changes the flags (R181, R200, R201,
R225). -/
theorem execForm_pushed {m : Mnemonic} {o : Operand} {s t : State} {n : Nat}
    (hm : (m ∈ [Mnemonic.pha, .php] ∧ n = 1) ∨ (m = .jsr ∧ n = 2) ∨ (m = .brk ∧ n = 3)) (h : execForm m o s = .next t) :
    Pushed n s t ∧ (t.flags = s.flags ∨ (m = .brk ∧ t.flags = { s.flags with i := true })) := by
  have hadvance := pushed_advance s o.mode.length
  simp only [List.mem_cons, List.not_mem_nil, or_false] at hm
  rcases hm with ⟨rfl | rfl, rfl⟩ | ⟨rfl, rfl⟩ | ⟨rfl, rfl⟩
  · cases h
    exact ⟨hadvance.push _, .inl rfl⟩
  · cases h
    exact ⟨hadvance.push _, .inl rfl⟩
  · obtain ⟨a, -, e⟩ := Option.map_eq_some_iff.1 (execForm_eq_next.1 h)
    cases e
    exact ⟨(hadvance.pushWord _).setPc a, .inl rfl⟩
  · cases h
    exact ⟨hadvance.takeTrap, .inr ⟨rfl, State.takeTrap_flags _⟩⟩

/-- The stack bytes of the statement are those of `stackAddress`. -/
theorem stackAddress_eq_add (sp : Byte) : stackAddress sp = 0x0100#16 + sp.setWidth 16 := by
  apply BitVec.eq_of_toNat_eq
  have := sp.isLt
  rw [stackAddress_toNat, BitVec.toNat_add, BitVec.toNat_setWidth, BitVec.toNat_ofNat]
  omega

/-- Settles O20, push by push. -/
theorem pushesChangeOnlyTheirStackBytes : Obligations.PushesChangeOnlyTheirStackBytes := by
  intro i s t n hm h
  obtain ⟨hp, hflags⟩ := execForm_pushed hm (exec_eq_execForm i s ▸ h)
  simp only [← stackAddress_eq_add]
  refine ⟨hp.peek, hp.sp, hp.a, hp.x, hp.y, ?_, fun hbrk => ?_, hp.cart, hp.extra⟩
  · rcases hflags with e | ⟨-, e⟩ <;> rw [e]
  · exact hflags.resolve_right fun hb => hbrk hb.1

/-! ## The step and its cycle count -/

/-- The default table holds every instruction, and the default IMPLEMENTED every mnemonic (R89, R95). -/
theorem wf_core (i : Instr) : i.wf .core = true := by
  obtain ⟨e, he, -⟩ := encodeWith_eq_some_iff.1 (encodeWith_mos6502 i)
  exact Bool.and_eq_true_iff.2 ⟨Option.isSome_of_eq_some he, allMnemonics_contains i.mnemonic⟩

theorem outcome_account (n : Nat) (r : Result) : (account n r).outcome = r := by
  cases r <;> rfl

theorem cycles_account_next (n : Nat) (s : State) : (account n (.next s)).cycles = some n := rfl

/-- When the bytes at PC decode, the step runs the instruction decoded. -/
theorem step_of_decode {s : State} {i : Instr} {rest : List Byte} (h : decode s.fetchBytes = .ok (i, rest)) :
    step s = exec i s := by
  obtain ⟨e, -, -, -, -, hrun⟩ := runStep_of_decode h
  rw [step, hrun, outcome_account]

/-- Settles O7, from what a step is at an entry of the table. -/
theorem stepRunsTheDecodedInstruction : Obligations.StepRunsTheDecodedInstruction :=
  ⟨fun _ i _ h => ⟨step_of_decode h, wf_core i, runStep_of_decode h⟩,
    fun s => ⟨rfl, fun _ => rfl, fun i => exec_eq_execForm i s,
      fun _ _ he hm => runStep_of_lookup he (List.contains_iff_mem.2 hm)⟩⟩

/-- A page is the number of an address divided by 256 (R7, R123). -/
theorem pageCrossing_eq (w v : Addr) : pageCrossing w v = if w.toNat / 256 = v.toNat / 256 then 0 else 1 := by
  rw [pageCrossing, page, page, ← hi_toNat, ← hi_toNat]
  exact if_congr BitVec.toNat_inj.symm rfl rfl

/-- A step that completes returns the count of the entry looked up. -/
theorem stepCycles_of_next {s t : State} {i : Instr} {rest : List Byte} {e : Entry}
    (hd : decode s.fetchBytes = .ok (i, rest)) (hl : OpcodeTable.mos6502.lookup s.opcodeByte = some e)
    (h : step s = .next t) :
    exec i s = .next t ∧ e.mnemonic = i.mnemonic ∧ e.mode = i.mode ∧ stepCycles s = some (cycleCount e i.operand s) := by
  have hexec : exec i s = .next t := step_of_decode hd ▸ h
  obtain ⟨e', hl', hm, hmode, -, hrun⟩ := runStep_of_decode hd
  cases hl.symm.trans hl'
  exact ⟨hexec, hm, hmode, by rw [stepCycles, hrun, hexec, cycles_account_next]⟩

/-- The operand of a mode with an index added to an address is a memory operand with a base (R110, R111, R116). -/
theorem exists_base_of_mode {o : Operand} (h : o.mode ∈ [Mode.abx, .aby, .izy]) (s : State) :
    ∃ m w, o = .mem m ∧ m.base s = some w := by
  cases o with
  | mem m =>
    cases m with
    | abx w | aby w | izy b => exact ⟨_, _, rfl, rfl⟩
    | zp _ | zpx _ | zpy _ | abs _ | izx _ => simp [Operand.mode, MemOperand.mode] at h
  | acc | imp | imm _ | ind _ | rel _ => simp [Operand.mode] at h

theorem exists_rel_of_mode {o : Operand} (h : o.mode = .rel) : ∃ off, o = .rel off := by
  cases o with
  | rel off => exact ⟨off, rfl⟩
  | mem m => cases m <;> cases h
  | acc | imp | imm _ | ind _ => cases h

/-- In R89 mode REL goes with the branches alone (R183). -/
theorem exec_of_rel {i : Instr} {off : Byte} (h : i.operand = .rel off) (s : State) :
    exec i s = branch (branchTaken i.mnemonic s.flags) off s := by
  cases i <;> cases h <;> rfl

theorem penalty_none {e : Entry} (h : e.modifier = .none) (o : Operand) (s : State) : penalty e o s = 0 := by
  simp only [penalty, h]

theorem penalty_pageCross {e : Entry} (h : e.modifier = .pageCross) {m : MemOperand} {s : State} {w : Addr}
    (hw : m.base s = some w) : penalty e (.mem m) s = pageCrossing w (m.ea s) := by
  simp only [penalty, h, hw, Option.elim_some]

theorem penalty_branch {e : Entry} (h : e.modifier = .branch) (off : Byte) (s : State) :
    penalty e (.rel off) s =
      if branchTaken e.mnemonic s.flags then 1 + pageCrossing (s.pc + 2#16) (relTarget s off) else 0 := by
  simp only [penalty, h]

/-- Settles O55, modifier by modifier: the conditions of R88 give the operand each modifier goes with. -/
theorem cycleCountIsBasePlusPenalty : Obligations.CycleCountIsBasePlusPenalty := by
  refine ⟨fun s t i rest e hd hl h => ?_, fun s f h => ?_⟩
  · obtain ⟨hexec, hm, hmode, hcycles⟩ := stepCycles_of_next hd hl h
    obtain ⟨-, hbranch, hpage⟩ := e.wf_iff.1 (OpcodeTable.wf_of_mem_mos6502 (OpcodeTable.lookup_spec hl).1)
    rw [hmode] at hbranch hpage
    rw [hcycles, cycleCount]
    refine ⟨fun hmod => by rw [penalty_none hmod, Nat.add_zero], fun hmod => ?_, fun hmod => ?_⟩
    · obtain ⟨m, w, ho, hw⟩ := exists_base_of_mode (hpage hmod) s
      exact ⟨m, w, ho, hw, by rw [ho, penalty_pageCross hmod hw, pageCrossing_eq]⟩
    · obtain ⟨off, ho⟩ := exists_rel_of_mode (hbranch hmod)
      rw [exec_of_rel ho] at hexec
      cases hexec
      rw [ho, penalty_branch hmod, hm]
      refine ⟨off, rfl, fun htaken => ?_, fun htaken => ?_⟩
      · simp [htaken]
      · simp [htaken, pageCrossing_eq, Nat.add_assoc]
  · rw [step] at h
    rw [stepCycles]
    cases hr : runStep .core s <;> rw [hr] at h <;> cases h
    rfl

/-! ## The order of the transactions -/

/-- Reads followed by writes (R126). -/
def ReadsThenWrites (ts : List Transaction) : Prop :=
  ∃ reads writes : List (Addr × Byte),
    ts = reads.map (fun x => Transaction.read x.1 x.2) ++ writes.map (fun x => Transaction.write x.1 x.2)

/-- Transactions without a write are reads. -/
theorem eq_map_read_of_writesOf : {ts : List Transaction} → writesOf ts = [] →
    ∃ reads : List (Addr × Byte), ts = reads.map (fun x => Transaction.read x.1 x.2)
  | [], _ => ⟨[], rfl⟩
  | .read a v :: ts, h => by
    obtain ⟨reads, hreads⟩ := eq_map_read_of_writesOf (ts := ts) h
    exact ⟨(a, v) :: reads, by rw [hreads, List.map_cons]⟩

theorem readsThenWrites_of_no_write {ts : List Transaction} (h : writesOf ts = []) : ReadsThenWrites ts := by
  obtain ⟨reads, hreads⟩ := eq_map_read_of_writesOf h
  exact ⟨reads, [], by rw [hreads, List.map_nil, List.append_nil]⟩

theorem readsThenWrites_map_write (ws : List (Addr × Byte)) :
    ReadsThenWrites (ws.map fun x => Transaction.write x.1 x.2) := ⟨[], ws, rfl⟩

/-- Reads may come before. -/
theorem ReadsThenWrites.append_left {ts us : List Transaction} (h : ReadsThenWrites us) (ht : writesOf ts = []) :
    ReadsThenWrites (ts ++ us) := by
  obtain ⟨first, hfirst⟩ := eq_map_read_of_writesOf ht
  obtain ⟨reads, writes, hus⟩ := h
  exact ⟨first ++ reads, writes, by rw [hfirst, hus, List.map_append, List.append_assoc]⟩

theorem readsThenWrites_storeTransactions (o : Operand) (v : Byte) (s : State) :
    ReadsThenWrites (storeTransactions o v s) := by
  rw [storeTransactions]
  cases o.ea s with
  | none => exact readsThenWrites_map_write []
  | some a => exact readsThenWrites_map_write [(a, v)]

/-- Through `ea` an operation reads, writes, or reads and then writes (R121). -/
theorem readsThenWrites_memoryTransactions (m : Mnemonic) (o : Operand) (s : State) :
    ReadsThenWrites (memoryTransactions m o s) := by
  have hload : writesOf (loadTransactions o s) = [] := writesOf_loadTransactions o s
  unfold memoryTransactions
  split
  · exact readsThenWrites_of_no_write hload
  · exact readsThenWrites_storeTransactions _ _ _
  · split
    · exact (readsThenWrites_storeTransactions _ _ _).append_left hload
    · exact readsThenWrites_map_write []
  · exact readsThenWrites_map_write []

/-- On the stack an operation pushes or pulls, BRK apart, whose vector reads follow its pushes (R126). -/
theorem readsThenWrites_stackTransactions {m : Mnemonic} (hm : m ≠ .brk) (o : Operand) (s : State) :
    ReadsThenWrites (stackTransactions m o s) := by
  cases m
  case brk => exact absurd rfl hm
  case pha | php => exact readsThenWrites_map_write [(stackAddress s.sp, _)]
  case jsr =>
    rw [stackTransactions]
    cases o.ea s with
    | none => exact readsThenWrites_map_write []
    | some a => exact readsThenWrites_map_write [(stackAddress s.sp, _), (stackAddress (s.sp - 1#8), _)]
  case pla | plp | rts | rti => exact readsThenWrites_of_no_write (writesOf_pullTransactions s _ s.sp)
  all_goals exact readsThenWrites_map_write []

/-- No operation accesses memory through `ea` and the stack besides. -/
theorem memoryTransactions_nil_or_stackTransactions_nil (m : Mnemonic) (o : Operand) (s : State) :
    memoryTransactions m o s = [] ∨ stackTransactions m o s = [] := by
  cases m
  case pha | php | pla | plp | jsr | rts | brk | rti => exact .inl rfl
  all_goals exact .inr rfl

/-- The fetch and the pointer reads come first, then what the operation does. -/
theorem readsThenWrites_formTransactions {m : Mnemonic} (hm : m ≠ .brk) (o : Operand) (s : State) :
    ReadsThenWrites (formTransactions m o s) := by
  have hoperation : ReadsThenWrites (memoryTransactions m o s ++ stackTransactions m o s) := by
    rcases memoryTransactions_nil_or_stackTransactions_nil m o s with h | h <;> rw [h]
    · exact readsThenWrites_stackTransactions hm o s
    · rw [List.append_nil]
      exact readsThenWrites_memoryTransactions m o s
  have hfetch : writesOf (opcodeTransaction s :: (operandByteTransactions o s ++ pointerTransactions o s)) = [] := by
    simp [opcodeTransaction]
  have := hoperation.append_left hfetch
  rwa [List.cons_append, ← List.append_assoc] at this

/-- BRK is the one instruction of its mnemonic (R89). -/
theorem mnemonic_ne_brk {i : Instr} (h : i ≠ .brk) : i.mnemonic ≠ .brk := by
  contrapose! h
  cases i <;> cases h
  rfl

/-- Settles O57, part by part of the list of R126. -/
theorem readsPrecedeWritesExceptInBrk : Obligations.ReadsPrecedeWritesExceptInBrk :=
  fun i s => ⟨⟨_, rfl⟩, fun hi => readsThenWrites_formTransactions (mnemonic_ne_brk hi) i.operand s⟩

/-! ## The number of the transactions -/

/-- How many operand bytes R126 (2) reads in a mode. -/
def operandByteReads (mode : Mode) : Nat := if mode = .imm then 0 else mode.length - 1

/-- How many pointer bytes R126 (3) reads in a mode. -/
def pointerReads (mode : Mode) : Nat := if mode ∈ [Mode.ind, .izx, .izy] then 2 else 0

/-- How often an operation goes through `ea` (R121): a read-modify-write twice, a read or a store once. -/
def accessesThroughEa (m : Mnemonic) : Nat :=
  if (modifyOperation m).isSome then 2
  else if (readOperation m).isSome ∨ m ∈ [Mnemonic.sta, .stx, .sty] then 1
  else 0

/-- How often an operation accesses the stack and the BRK vector (R127, R128, R212). -/
def stackAccesses : Mnemonic → Nat
  | .pha | .php | .pla | .plp => 1
  | .jsr | .rts => 2
  | .rti => 3
  | .brk => 5
  | _ => 0

/-- A bound on the transactions of an operation through a mode (R107). -/
def transactionBound (m : Mnemonic) (mode : Mode) : Nat :=
  1 + operandByteReads mode + pointerReads mode + accessesThroughEa m + stackAccesses m

theorem length_operandByteTransactions (o : Operand) (s : State) :
    (operandByteTransactions o s).length = operandByteReads o.mode := by
  cases o with
  | mem m => cases m <;> rfl
  | acc | imp | imm _ | ind _ | rel _ => rfl

theorem length_pointerTransactions (o : Operand) (s : State) :
    (pointerTransactions o s).length = pointerReads o.mode := by
  cases o with
  | mem m => cases m <;> rfl
  | acc | imp | imm _ | ind _ | rel _ => rfl

theorem length_loadTransactions_le (o : Operand) (s : State) : (loadTransactions o s).length ≤ 1 := by
  cases o <;> simp [loadTransactions]

theorem length_storeTransactions_le (o : Operand) (v : Byte) (s : State) : (storeTransactions o v s).length ≤ 1 := by
  rw [storeTransactions, List.length_map]
  cases o.ea s <;> simp

theorem length_memoryTransactions_le (m : Mnemonic) (o : Operand) (s : State) :
    (memoryTransactions m o s).length ≤ accessesThroughEa m := by
  have hload := length_loadTransactions_le o s
  have hstore := length_storeTransactions_le o
  cases m
  case lda | ldx | ldy | adc | sbc | and | ora | eor | cmp | cpx | cpy | bit => exact hload
  case sta | stx | sty => exact hstore _ s
  case inc | dec | asl | lsr | rol | ror =>
    simp only [memoryTransactions, readOperation, storedRegister, modifyOperation]
    split
    · rw [List.length_append]
      exact Nat.add_le_add hload (hstore _ s)
    · exact Nat.zero_le _
  all_goals exact Nat.zero_le _

theorem length_stackTransactions_le (m : Mnemonic) (o : Operand) (s : State) :
    (stackTransactions m o s).length ≤ stackAccesses m := by
  cases m
  case jsr =>
    rw [stackTransactions]
    split
    · exact Nat.le_refl 2
    · exact Nat.zero_le 2
  all_goals exact Nat.le_refl _

theorem length_formTransactions_le (m : Mnemonic) (o : Operand) (s : State) :
    (formTransactions m o s).length ≤ transactionBound m o.mode := by
  have hmemory := length_memoryTransactions_le m o s
  have hstack := length_stackTransactions_le m o s
  simp only [formTransactions, List.length_cons, List.length_append, length_operandByteTransactions,
    length_pointerTransactions, transactionBound]
  omega

/-- In R89 no pair of a mnemonic and a mode makes more than five transactions but BRK, which makes six. -/
theorem transactionBound_of_mem_mos6502 {e : Entry} (h : e ∈ OpcodeTable.mos6502) :
    transactionBound e.mnemonic e.mode ≤ 5 ∨ (transactionBound e.mnemonic e.mode = 6 ∧ e.opcode = 0x00#8) := by
  have hall : OpcodeTable.mos6502.all (fun e => decide (transactionBound e.mnemonic e.mode ≤ 5 ∨
      (transactionBound e.mnemonic e.mode = 6 ∧ e.opcode = 0x00#8))) = true := by decide
  exact of_decide_eq_true (List.all_eq_true.1 hall e h)

theorem stepTransactions_of_lookup {s : State} {e : Entry} (h : OpcodeTable.mos6502.lookup s.opcodeByte = some e) :
    stepTransactions s = formTransactions e.mnemonic (s.fetchOperand e.mode) s := by
  have hl : Params.core.table.lookup s.opcodeByte = some e := h
  simp only [stepTransactions, runTransactions, hl, allMnemonics_contains, if_true]

theorem fetchOperand_mode (s : State) (mode : Mode) : (s.fetchOperand mode).mode = mode := by
  cases mode <;> rfl

/-- Settles O56: the entries of R89 are checked, one by one, against the bound of their mnemonic and mode. -/
theorem stepMakesAtMostSixTransactions : Obligations.StepMakesAtMostSixTransactions := by
  intro s
  cases hl : OpcodeTable.mos6502.lookup s.opcodeByte with
  | none =>
    rw [stepTransactions_of_miss hl, List.length_singleton]
    exact ⟨Nat.le_refl 1, by decide, nofun⟩
  | some e =>
    obtain ⟨hmem, hop⟩ := OpcodeTable.lookup_spec hl
    have hbound := length_formTransactions_le e.mnemonic (s.fetchOperand e.mode) s
    rw [fetchOperand_mode] at hbound
    rw [stepTransactions_of_lookup hl, ← hop]
    refine ⟨Nat.succ_le_succ (Nat.zero_le _), ?_⟩
    rcases transactionBound_of_mem_mos6502 hmem with hfive | ⟨hsix, hbrk⟩
    · exact ⟨by omega, by omega⟩
    · exact ⟨by omega, fun _ => hbrk⟩

end Sys2Proof.Machine
end

section
/-! PROOFS, spec/41_load_store_transfer.md: what an instruction that reads an operand and one that stores a register do,
said once for every mnemonic and mode, and the loads, stores and transfers that follow. -/

namespace Sys2Proof.Machine

/-! ## The shape of an instruction from its mnemonic -/

/-- A mnemonic that reads an operand has no other operation. -/
theorem other_operations_of_readOperation {m : Mnemonic} {f : Byte → State → State} (h : readOperation m = some f)
    (s : State) :
    storedRegister m s = none ∧ modifyOperation m = none ∧ impliedOperation m = none ∧ isBranch m = false := by
  cases m <;> cases h <;> exact ⟨rfl, rfl, rfl, rfl⟩

/-- A mnemonic that stores a register has no other operation. -/
theorem other_operations_of_storedRegister {m : Mnemonic} {s : State} {v : Byte} (h : storedRegister m s = some v) :
    readOperation m = none ∧ modifyOperation m = none ∧ impliedOperation m = none ∧ isBranch m = false := by
  cases m <;> cases h <;> exact ⟨rfl, rfl, rfl, rfl⟩

/-- An instruction that reads an operand completes in every state: PC advances and the operation runs on the operand (R121). -/
theorem exec_of_readOperation {i : Instr} {f : Byte → State → State} (h : readOperation i.mnemonic = some f) (s : State) :
    ∃ v, i.operand.load s = some v ∧ exec i s = .next (f v (s.advance i.length)) := by
  obtain ⟨hstore, hmodify, himplied, hbranch⟩ := other_operations_of_readOperation h s
  rcases exec_cases i s with ⟨g, v, hg, hv, e⟩ | ⟨_, _, h', -⟩ | ⟨_, h', -⟩ | ⟨_, _, h', -⟩ | ⟨_, h', -⟩ | ⟨_, h', -⟩ |
    ⟨_, ⟨rfl, -⟩ | ⟨rfl, -⟩ | ⟨rfl, -⟩⟩
  · obtain rfl : f = g := Option.some.inj (h.symm.trans hg)
    exact ⟨v, hv, e⟩
  · simp [hstore] at h'
  · simp [hmodify] at h'
  · simp [hmodify] at h'
  · simp [himplied] at h'
  · simp [hbranch] at h'
  all_goals cases h

/-- An instruction that stores a register is the write of its byte through its effective address, from the state in which
PC has advanced (R121). -/
theorem exec_of_storedRegister {i : Instr} {s : State} {v : Byte} (h : storedRegister i.mnemonic s = some v) :
    ∃ m, i.operand = .mem m ∧ exec i s = (s.advance i.length).write (m.ea s) v := by
  obtain ⟨hread, hmodify, himplied, hbranch⟩ := other_operations_of_storedRegister h
  rcases exec_cases i s with ⟨_, _, h', -⟩ | ⟨w, m, hw, ho, e⟩ | ⟨_, h', -⟩ | ⟨_, _, h', -⟩ | ⟨_, h', -⟩ | ⟨_, h', -⟩ |
    ⟨_, ⟨rfl, -⟩ | ⟨rfl, -⟩ | ⟨rfl, -⟩⟩
  · simp [hread] at h'
  · obtain rfl : v = w := Option.some.inj (h.symm.trans hw)
    exact ⟨m, ho, by rw [e, length_mem ho, storeMem]⟩
  · simp [hmodify] at h'
  · simp [hmodify] at h'
  · simp [himplied] at h'
  · simp [hbranch] at h'
  all_goals cases h

/-! ## Stores, loads and transfers -/

/-- A store does what the address map says of a write (R60, R61). -/
theorem storesByte_of_storedRegister {i : Instr} {s : State} {v : Byte} (h : storedRegister i.mnemonic s = some v) :
    StoresByte i s v := by
  obtain ⟨m, ho, e⟩ := exec_of_storedRegister h
  exact ⟨m, ho, e ▸ State.write_writesByte _ _ _⟩

/-- Settles O36: each of the three mnemonics stores its register. -/
theorem storesWriteTheRegisterThroughTheAddress : Obligations.StoresWriteTheRegisterThroughTheAddress :=
  ⟨rfl, rfl, rfl, fun _ s =>
    ⟨fun h => storesByte_of_storedRegister (congrArg (storedRegister · s) h),
      fun h => storesByte_of_storedRegister (congrArg (storedRegister · s) h),
      fun h => storesByte_of_storedRegister (congrArg (storedRegister · s) h)⟩⟩

/-- Settles O35: each of the three mnemonics loads its register with the operand read. -/
theorem loadsWriteTheRegisterAndZN : Obligations.LoadsWriteTheRegisterAndZN :=
  ⟨rfl, rfl, rfl, fun _ s =>
    ⟨fun h => exec_of_readOperation (f := loadA) (congrArg readOperation h) s,
      fun h => exec_of_readOperation (f := loadX) (congrArg readOperation h) s,
      fun h => exec_of_readOperation (f := loadY) (congrArg readOperation h) s⟩⟩

/-- Settles O37: each transfer is evaluated. -/
theorem transfersCopyOneRegister : Obligations.TransfersCopyOneRegister :=
  ⟨rfl, rfl, rfl, rfl, rfl, rfl, fun _ => ⟨rfl, rfl, rfl, rfl, rfl, rfl⟩⟩

end Sys2Proof.Machine
end

section
/-! PROOFS, spec/42_arithmetic_logic.md: the signed and unsigned outcomes of an addition with carry, what a
read-modify-write does to its operand, and the arithmetic, logic, compare, bit test and count instructions that follow. -/

namespace Sys2Proof.Machine

/-! ## Addition with carry and its complement -/

/-- A signed outcome that no byte holds (R150, R151). -/
def outsideSignedByte (n : Int) : Bool := decide (n < -128 ∨ 127 < n)

/-- Testing a byte under the mask 0x80 is testing its sign. -/
theorem and_signMask_ne_zero (x : Byte) : (x &&& 0x80#8 != 0#8) = x.msb := by
  rw [show 0x80#8 = BitVec.twoPow 8 7 from rfl, BitVec.and_twoPow, BitVec.msb_eq_getLsbD_last]
  cases x.getLsbD 7 <;> rfl

/-- Both terms of a sum differ in sign from the result exactly when the signed sum is no signed byte (R150). -/
theorem signTest_eq_outsideSignedByte (a m : Byte) (c : Bool) :
    ((a ^^^ BitVec.ofNat 8 (a.toNat + m.toNat + c.toNat)) &&& (m ^^^ BitVec.ofNat 8 (a.toNat + m.toNat + c.toNat)) &&&
      0x80#8 != 0#8) = outsideSignedByte (a.toInt + m.toInt + c.toNat) := by
  have ha := a.isLt
  have hm := m.isLt
  have hc := c.toNat_le
  rw [and_signMask_ne_zero, BitVec.msb_and, BitVec.msb_xor, BitVec.msb_xor, outsideSignedByte, Bool.eq_iff_iff]
  simp only [BitVec.msb_eq_decide, BitVec.toNat_ofNat, BitVec.toInt_eq_toNat_cond, Bool.and_eq_true, Bool.xor_iff_ne, ne_eq,
    decide_eq_decide, decide_eq_true_eq]
  omega

/-- ADC with V as the signed range (R150). -/
theorem Flags.adc_eq (f : Flags) (a m : Byte) :
    f.adc a m = (BitVec.ofNat 8 (addSum f a m),
      { f with
        c := decide (255 < addSum f a m)
        v := outsideSignedByte (a.toInt + m.toInt + f.c.toNat) }.setZN (BitVec.ofNat 8 (addSum f a m))) := by
  rw [← signTest_eq_outsideSignedByte]
  rfl

theorem toInt_not_eq_neg_sub_one (m : Byte) : (~~~m).toInt = -m.toInt - 1 := by
  have hm := m.isLt
  simp only [BitVec.toInt_eq_toNat_cond, BitVec.toNat_not]
  omega

theorem addSum_not (f : Flags) (a m : Byte) : addSum f a (~~~m) = a.toNat + (255 - m.toNat) + f.c.toNat := by
  rw [addSum, BitVec.toNat_not]

/-- Adding the complement of the operand with carry is subtracting it with borrow, C being the absence of one (R151). -/
theorem Flags.sbc_eq {f : Flags} {borrow : Nat} (hb : borrow + f.c.toNat = 1) (a m : Byte) :
    f.sbc a m = (a - m - BitVec.ofNat 8 borrow,
      { f with
        c := decide (m.toNat + borrow ≤ a.toNat)
        v := outsideSignedByte (a.toInt - m.toInt - borrow) }.setZN (a - m - BitVec.ofNat 8 borrow)) := by
  have ha := a.isLt
  have hm := m.isLt
  have hnot : m ^^^ 0xFF#8 = ~~~m := BitVec.xor_allOnes
  have hr : BitVec.ofNat 8 (addSum f a (~~~m)) = a - m - BitVec.ofNat 8 borrow := by
    apply BitVec.eq_of_toNat_eq
    rw [addSum_not, BitVec.toNat_sub, BitVec.toNat_sub, BitVec.toNat_ofNat, BitVec.toNat_ofNat]
    omega
  have hc : decide (255 < addSum f a (~~~m)) = decide (m.toNat + borrow ≤ a.toNat) := by
    rw [addSum_not, decide_eq_decide]
    omega
  have hv : a.toInt + (~~~m).toInt + f.c.toNat = a.toInt - m.toInt - borrow := by
    rw [toInt_not_eq_neg_sub_one]
    omega
  rw [Flags.sbc, hnot, Flags.adc_eq, hr, hc, hv]

/-- Settles O38: the operation of ADC on the operand read. -/
theorem adcAddsWithCarry : Obligations.AdcAddsWithCarry := by
  refine ⟨rfl, fun i s hi => ?_⟩
  obtain ⟨m, hm, e⟩ := exec_of_readOperation (f := addA) (congrArg readOperation hi) s
  rw [addA, Flags.adc_eq] at e
  exact ⟨m, _, _, hm, rfl, rfl, e, (signTest_eq_outsideSignedByte s.a m s.flags.c).symm⟩

/-- Settles O39: the operation of SBC on the operand read. -/
theorem sbcSubtractsWithBorrow : Obligations.SbcSubtractsWithBorrow := by
  refine ⟨rfl, fun i s hi => ?_⟩
  obtain ⟨m, hm, e⟩ := exec_of_readOperation (f := subA) (congrArg readOperation hi) s
  have hb : (if s.flags.c then 0 else 1) + s.flags.c.toNat = 1 := by cases s.flags.c <;> rfl
  rw [subA, State.advance_flags, Flags.sbc_eq hb] at e
  exact ⟨m, _, _, hm, rfl, rfl, e⟩

/-! ## Logic, compare and bit test -/

/-- Settles O40: the operation of each of the three mnemonics on the operand read. -/
theorem logicCombinesAWithTheOperand : Obligations.LogicCombinesAWithTheOperand := by
  refine ⟨rfl, rfl, rfl, fun i s hi => ?_⟩
  simp only [List.mem_cons, List.not_mem_nil, or_false] at hi
  rcases hi with h | h | h
  · obtain ⟨m, hm, e⟩ := exec_of_readOperation (f := andA) (congrArg readOperation h) s
    exact ⟨m, s.a &&& m, hm, by simp [h], by simp [h], by simp [h], e⟩
  · obtain ⟨m, hm, e⟩ := exec_of_readOperation (f := orA) (congrArg readOperation h) s
    exact ⟨m, s.a ||| m, hm, by simp [h], by simp [h], by simp [h], e⟩
  · obtain ⟨m, hm, e⟩ := exec_of_readOperation (f := eorA) (congrArg readOperation h) s
    exact ⟨m, s.a ^^^ m, hm, by simp [h], by simp [h], by simp [h], e⟩

/-- A comparison sets C, Z and N from the register and the operand as numbers (R155 to R157). -/
theorem Flags.compare_eq (f : Flags) (r m : Byte) :
    f.compare r m =
      { f with
        c := decide (m.toNat ≤ r.toNat), z := decide (r = m), n := decide (128 ≤ (r.toNat + 256 - m.toNat) % 256) } := by
  have hm := m.isLt
  have hn : (r - m).getLsbD 7 = decide (128 ≤ (r.toNat + 256 - m.toNat) % 256) := by
    change (r - m).msb = _
    rw [BitVec.msb_eq_decide, BitVec.toNat_sub, decide_eq_decide]
    omega
  rw [Flags.compare, hn]
  rfl

/-- An instruction that compares the register byte `r` with its operand completes, and changes C, Z and N only. -/
theorem exec_of_compare {i : Instr} {s : State} {r : Byte} {f : Byte → State → State}
    (h : readOperation i.mnemonic = some f)
    (hf : ∀ m, f m (s.advance i.length) = (s.advance i.length).setFlags (s.flags.compare r m)) :
    ∃ m, i.operand.load s = some m ∧ exec i s = .next { s.advance i.length with
      flags := { s.flags with
        c := decide (m.toNat ≤ r.toNat), z := decide (r = m), n := decide (128 ≤ (r.toNat + 256 - m.toNat) % 256) } } := by
  obtain ⟨m, hm, e⟩ := exec_of_readOperation h s
  rw [hf, Flags.compare_eq] at e
  exact ⟨m, hm, e⟩

/-- Settles O41: each of the three mnemonics compares its register. -/
theorem comparesSetCZN : Obligations.ComparesSetCZN := by
  refine ⟨rfl, rfl, rfl, fun i s hi => ?_⟩
  simp only [List.mem_cons, List.not_mem_nil, or_false] at hi
  rcases hi with h | h | h
  · obtain ⟨m, hm, e⟩ := exec_of_compare (r := s.a) (congrArg readOperation h) fun _ => rfl
    exact ⟨m, s.a, hm, by simp [h], by simp [h], by simp [h], e⟩
  · obtain ⟨m, hm, e⟩ := exec_of_compare (r := s.x) (congrArg readOperation h) fun _ => rfl
    exact ⟨m, s.x, hm, by simp [h], by simp [h], by simp [h], e⟩
  · obtain ⟨m, hm, e⟩ := exec_of_compare (r := s.y) (congrArg readOperation h) fun _ => rfl
    exact ⟨m, s.y, hm, by simp [h], by simp [h], by simp [h], e⟩

/-- Settles O42: the operation of BIT on the operand read. -/
theorem bitTestsTheOperand : Obligations.BitTestsTheOperand :=
  ⟨rfl, fun _ s h => exec_of_readOperation (f := bitA) (congrArg readOperation h) s⟩

/-! ## Increment and decrement -/

/-- A mnemonic that modifies its operand has no other operation. -/
theorem other_operations_of_modifyOperation {m : Mnemonic} {op : ModifyOp} (h : modifyOperation m = some op) (s : State) :
    readOperation m = none ∧ storedRegister m s = none ∧ impliedOperation m = none ∧ isBranch m = false := by
  cases m <;> cases h <;> exact ⟨rfl, rfl, rfl, rfl⟩

/-- An instruction that modifies its operand is a read-modify-write of A or of memory (R108, R121). -/
theorem exec_of_modifyOperation {i : Instr} {op : ModifyOp} (h : modifyOperation i.mnemonic = some op) (s : State) :
    (i.operand = .acc ∧ exec i s = modifyAcc op s) ∨ ∃ m, i.operand = .mem m ∧ exec i s = modifyMem op m s := by
  obtain ⟨hread, hstore, himplied, hbranch⟩ := other_operations_of_modifyOperation h s
  rcases exec_cases i s with ⟨_, _, h', -⟩ | ⟨_, _, h', -⟩ | ⟨op', hop, ho, e⟩ | ⟨op', m, hop, ho, e⟩ | ⟨_, h', -⟩ |
    ⟨_, h', -⟩ | ⟨_, ⟨rfl, -⟩ | ⟨rfl, -⟩ | ⟨rfl, -⟩⟩
  · simp [hread] at h'
  · simp [hstore] at h'
  · obtain rfl : op = op' := Option.some.inj (h.symm.trans hop)
    exact .inl ⟨ho, e⟩
  · obtain rfl : op = op' := Option.some.inj (h.symm.trans hop)
    exact .inr ⟨m, ho, e⟩
  · simp [himplied] at h'
  · simp [hbranch] at h'
  all_goals cases h

/-- A read-modify-write of memory is a write of the new byte, and then of the flags unless that is refused (R121, R222). -/
theorem modifyMem_writesByte (op : ModifyOp) (m : MemOperand) (s : State) :
    WritesByte (s.advance m.mode.length) (m.ea s) (op s.flags (m.load s)).1
      (fun t => t.setFlags (op s.flags (m.load s)).2) (modifyMem op m s) := by
  obtain ⟨hram, hrom, hopen, hdevice⟩ :=
    State.write_writesByte (s.advance m.mode.length) (m.ea s) (op s.flags (m.load s)).1
  refine ⟨fun h => ?_, fun h => ?_, fun h h' hc => ?_, fun h h' hc => ?_⟩
  · rw [modifyMem, hram h]
  · rw [modifyMem, hrom h]
  · rw [modifyMem, hopen h h' hc]
  · rcases hdevice h h' hc with e | e
    · exact .inl (by rw [modifyMem, e])
    · exact .inr (by rw [modifyMem, e])

/-- An instruction that modifies its operand replaces it by what its operation computes, through any operand. -/
theorem modifiesOperand_of_modifyOperation {i : Instr} {op : ModifyOp} (h : modifyOperation i.mnemonic = some op)
    (s : State) : ModifiesOperand i s (fun m => (op s.flags m).1) (fun m => (op s.flags m).2) := by
  rcases exec_of_modifyOperation h s with ⟨ho, e⟩ | ⟨m, ho, e⟩
  · have hlen : i.length = 1 := by rw [Instr.length, Instr.mode, ho]; rfl
    rw [ModifiesOperand, ho, e, hlen]
    rfl
  · rw [ModifiesOperand, ho, e, length_mem ho]
    exact modifyMem_writesByte op m s

/-- Settles O43: the operations of the two mnemonics. -/
theorem incAndDecModifyMemory : Obligations.IncAndDecModifyMemory :=
  ⟨rfl, rfl, fun _ s =>
    ⟨fun h => modifiesOperand_of_modifyOperation (op := Flags.inc) (congrArg modifyOperation h) s,
      fun h => modifiesOperand_of_modifyOperation (op := Flags.dec) (congrArg modifyOperation h) s⟩⟩

/-- Settles O44: each count is evaluated. -/
theorem indexRegistersCountUpAndDown : Obligations.IndexRegistersCountUpAndDown :=
  ⟨rfl, rfl, rfl, rfl, fun _ => ⟨rfl, rfl, rfl, rfl⟩⟩

end Sys2Proof.Machine
end

section
/-! PROOFS, spec/43_shift_rotate.md: the shifts and the rotations of a byte as numbers, and the four instructions that
follow. -/

namespace Sys2Proof.Machine

theorem flagBit_true_eq_twoPow (place : Nat) : flagBit true place = BitVec.twoPow 8 place := by
  apply BitVec.eq_of_toNat_eq
  rw [BitVec.toNat_twoPow]
  rfl

theorem flagBit_eq_ofNat (c : Bool) (place : Nat) : flagBit c place = BitVec.ofNat 8 (2 ^ place * c.toNat) := by
  cases c <;> simp [flagBit]

/-- A flag placed where the byte has a zero bit is added to it. -/
theorem or_flagBit_eq_add {m : Byte} {place : Nat} (h : m.getLsbD place = false) (c : Bool) :
    m ||| flagBit c place = m + BitVec.ofNat 8 (2 ^ place * c.toNat) := by
  have hdisjoint : m &&& flagBit c place = 0#8 := by
    cases c
    · exact BitVec.and_zero
    · rw [flagBit_true_eq_twoPow, BitVec.and_twoPow, h]
      rfl
  rw [← BitVec.add_eq_or_of_and_eq_zero _ _ hdisjoint, flagBit_eq_ofNat]

theorem shiftLeft_one_eq_ofNat (m : Byte) : m <<< 1 = BitVec.ofNat 8 (2 * m.toNat) := by
  apply BitVec.eq_of_toNat_eq
  rw [BitVec.toNat_shiftLeft, BitVec.toNat_ofNat, Nat.shiftLeft_eq, pow_one, mul_comm]

theorem ushiftRight_one_eq_ofNat (m : Byte) : m >>> 1 = BitVec.ofNat 8 (m.toNat / 2) := by
  apply BitVec.eq_of_toNat_eq
  rw [BitVec.toNat_ushiftRight, BitVec.toNat_ofNat, Nat.shiftRight_eq_div_pow]
  have hm := m.isLt
  omega

/-- Shifting left with C into bit 0 (R172). -/
theorem rotateLeft_eq_ofNat (m : Byte) (c : Bool) :
    (m <<< 1) ||| flagBit c 0 = BitVec.ofNat 8 (2 * m.toNat + c.toNat) := by
  rw [or_flagBit_eq_add (by simp), shiftLeft_one_eq_ofNat, ← BitVec.ofNat_add, pow_zero, one_mul]

/-- Shifting right with C into bit 7 (R173). -/
theorem rotateRight_eq_ofNat (m : Byte) (c : Bool) :
    (m >>> 1) ||| flagBit c 7 = BitVec.ofNat 8 (m.toNat / 2 + 128 * c.toNat) := by
  rw [or_flagBit_eq_add (by simp), ushiftRight_one_eq_ofNat, ← BitVec.ofNat_add]
  rfl

/-- An instruction whose operation replaces the operand `m` by `r m` and C by `c m`, with Z and N following the result, does
so through any operand (R170 to R173). -/
theorem modifiesOperand_of_shift {i : Instr} {s : State} {op : ModifyOp} {r : Byte → Byte} {c : Byte → Bool}
    (h : modifyOperation i.mnemonic = some op)
    (hop : op s.flags = fun m => (r m, { s.flags with c := c m }.setZN (r m))) :
    ModifiesOperand i s r (fun m => { s.flags with c := c m, z := r m == 0#8, n := (r m).getLsbD 7 }) := by
  have hmod := modifiesOperand_of_modifyOperation h s
  rw [hop] at hmod
  exact hmod

/-- Settles O45: the operation of each of the four mnemonics, its result as a number. -/
theorem shiftsMoveOneBitThroughCarry : Obligations.ShiftsMoveOneBitThroughCarry := by
  refine ⟨rfl, rfl, rfl, rfl, fun i s r c hi => ?_⟩
  rcases hi with ⟨h, rfl, rfl⟩ | ⟨h, rfl, rfl⟩ | ⟨h, rfl, rfl⟩ | ⟨h, rfl, rfl⟩
  · refine modifiesOperand_of_shift (op := Flags.asl) (congrArg modifyOperation h) (funext fun m => ?_)
    rw [Flags.asl, shiftLeft_one_eq_ofNat]
  · refine modifiesOperand_of_shift (op := Flags.lsr) (congrArg modifyOperation h) (funext fun m => ?_)
    rw [Flags.lsr, ushiftRight_one_eq_ofNat]
  · refine modifiesOperand_of_shift (op := Flags.rol) (congrArg modifyOperation h) (funext fun m => ?_)
    rw [Flags.rol, rotateLeft_eq_ofNat]
  · refine modifiesOperand_of_shift (op := Flags.ror) (congrArg modifyOperation h) (funext fun m => ?_)
    rw [Flags.ror, rotateRight_eq_ofNat]

end Sys2Proof.Machine
end

section
/-! PROOFS, spec/44_control_flow.md: what pushing and pulling a word do to the state, and the jumps, the call and return and
the branches that follow. -/

namespace Sys2Proof.Machine

/-! ## A word on the stack -/

/-- A push writes the RAM cell SP names and lowers SP (R127). -/
theorem State.push_eq (s : State) (v : Byte) :
    s.push v = { s with sp := s.sp - 1#8, bus := { s.bus with ram := s.bus.ram.write (0x100 + s.sp.toNat) v } } := by
  rw [State.push, Bus.writeRam_stack]
  rfl

/-- Pushing a word writes its high byte and then its low byte, at the lower address (R64, R127). -/
theorem State.pushWord_eq (s : State) (w : Addr) :
    s.pushWord w = { s with
      sp := s.sp - 2#8
      bus := { s.bus with
        ram := (s.bus.ram.write (0x100 + s.sp.toNat) (hi w)).write (0x100 + (s.sp - 1#8).toNat) (lo w) } } := by
  have hsp : s.sp - 1#8 - 1#8 = s.sp - 2#8 := sub_sub s.sp 1#8 1#8
  rw [State.pushWord, State.push_eq, State.push_eq, hsp]

/-- Pulling a word reads its low byte and then its high byte, and raises SP by two (R64, R128). -/
theorem State.pullWord_eq (s : State) :
    s.pullWord = (mkWord (s.bus.ram.read (0x100 + (s.sp + 2#8).toNat)) (s.bus.ram.read (0x100 + (s.sp + 1#8).toNat)),
      { s with sp := s.sp + 2#8 }) := by
  have hsp : s.sp + 1#8 + 1#8 = s.sp + 2#8 := add_assoc s.sp 1#8 1#8
  refine Prod.ext ?_ (congrArg s.setSp hsp)
  rw [State.pullWord_value, hsp]

/-- The word pulled depends on SP and RAM alone. -/
theorem State.pullWord_value_congr {s u : State} (hsp : u.sp = s.sp) (hram : u.bus.ram = s.bus.ram) :
    u.pullWord.1 = s.pullWord.1 := by
  rw [State.pullWord_value, State.pullWord_value, hsp, hram]

/-- A push leaves the cell above the one SP names, and with it the byte that would have been pulled. -/
theorem State.read_stack_above_push (s : State) (v : Byte) :
    (s.push v).bus.ram.read (0x100 + (s.sp + 1#8).toNat) = s.pull.1 := by
  rw [State.pull_value, State.push_eq]
  exact Memory.read_write_other v (by bv_omega) s.bus.ram

/-- On a canonical bus pulling a word gives back the word that was pushed, and SP as it was (R127, R128). -/
theorem State.pullWord_pushWord {s : State} (hs : s.bus.wf = true) (w : Addr) :
    (s.pushWord w).pullWord.1 = w ∧ (s.pushWord w).pullWord.2.sp = s.sp := by
  obtain ⟨hhigh, -⟩ := State.pull_push hs (hi w)
  obtain ⟨hlow, hsp⟩ := State.pull_push (s := s.push (hi w)) (Bus.writeRam_wf _ _ hs) (lo w)
  rw [State.pull_sp] at hsp
  constructor
  · rw [State.pullWord_value, ← State.pull_value, State.pushWord, hsp, State.read_stack_above_push, hhigh, hlow,
      mkWord_hi_lo]
  · rw [State.pullWord_sp, State.pushWord, hsp, State.push_sp, BitVec.sub_add_cancel]

/-! ## Jumps, call and return -/

/-- Settles O46: each jump is evaluated. -/
theorem jmpSetsPc : Obligations.JmpSetsPc :=
  ⟨rfl, fun _ _ => ⟨rfl, rfl⟩⟩

/-- JSR pushes the address of its own last byte and jumps (R181). -/
theorem exec_jsr (w : Addr) (s : State) :
    exec (.jsr w) s = .next (((s.advance 3).pushWord (s.pc + 2#16)).setPc w) := by
  have hlast : s.pc + 3#16 - 1#16 = s.pc + 2#16 := add_sub_assoc s.pc 3#16 1#16
  rw [← hlast]
  rfl

/-- RTS pulls a word and resumes one past it (R182). -/
theorem exec_rts (s : State) :
    exec .rts s = .next ((s.advance 1).pullWord.2.setPc ((s.advance 1).pullWord.1 + 1#16)) := rfl

/-- Settles O47, from what pushing and pulling a word leave. -/
theorem jsrPushesAndRtsPulls : Obligations.JsrPushesAndRtsPulls := by
  refine ⟨rfl, rfl, fun s w => ⟨?jsr, ?rts⟩⟩
  case jsr =>
    rw [exec_jsr, State.pushWord_eq]
    rfl
  case rts =>
    rw [exec_rts, State.pullWord_eq]
    rfl

/-- Settles O48: RTS pulls the word JSR pushed. -/
theorem rtsReturnsToTheInstructionAfterJsr : Obligations.RtsReturnsToTheInstructionAfterJsr := by
  intro s w hs
  obtain ⟨hword, hsp⟩ := State.pullWord_pushWord (s := s.advance 3) hs (s.pc + 2#16)
  refine ⟨_, exec_jsr w s, fun u husp huram => ⟨_, exec_rts u, ?pc, ?sp⟩⟩
  case pc =>
    have hpull : (u.advance 1).pullWord.1 = s.pc + 2#16 :=
      (State.pullWord_value_congr (u := u.advance 1) husp huram).trans hword
    rw [State.setPc_pc, hpull]
    exact add_assoc s.pc 2#16 1#16
  case sp =>
    rw [State.setPc_sp, State.pullWord_sp, State.advance_sp, husp]
    exact hsp

/-! ## Branches -/

/-- Settles O49: each branch tests the flag the statement names, and its target is the number of R117. -/
theorem branchesTestOneFlag : Obligations.BranchesTestOneFlag := by
  refine ⟨rfl, fun i s off taken hi => ⟨relTarget s off, relTarget_toNat s off, ?_⟩⟩
  have hbranch : i.operand = .rel off ∧ taken = branchTaken i.mnemonic s.flags := by
    rcases hi with ⟨rfl, rfl⟩ | ⟨rfl, rfl⟩ | ⟨rfl, rfl⟩ | ⟨rfl, rfl⟩ | ⟨rfl, rfl⟩ | ⟨rfl, rfl⟩ | ⟨rfl, rfl⟩ |
      ⟨rfl, rfl⟩ <;> exact ⟨rfl, rfl⟩
  obtain ⟨hoperand, rfl⟩ := hbranch
  exact exec_of_rel hoperand s

end Sys2Proof.Machine
end

section
/-! PROOFS, spec/45_stack_flags_system.md: what a pull, the trap and the return from it do to the state, and the stack, flag
and system instructions that follow. -/

namespace Sys2Proof.Machine

/-! ## A byte on the stack -/

/-- A pull reads the RAM cell above the one SP names and raises SP (R128). -/
theorem State.pull_eq (s : State) :
    s.pull = (s.bus.ram.read (0x100 + (s.sp + 1#8).toNat), { s with sp := s.sp + 1#8 }) :=
  Prod.ext s.pull_value rfl

/-- The byte pulled depends on SP and RAM alone. -/
theorem State.pull_value_congr {s u : State} (hsp : u.sp = s.sp) (hram : u.bus.ram = s.bus.ram) :
    u.pull.1 = s.pull.1 := by
  rw [State.pull_value, State.pull_value, hsp, hram]

/-- A byte pushed and pulled again leaves the word below it on the stack (R127, R128). -/
theorem State.pullWord_value_of_pull_push (s : State) (v : Byte) : (s.push v).pull.2.pullWord.1 = s.pullWord.1 := by
  have hsp : s.sp - 1#8 + 1#8 = s.sp := BitVec.sub_add_cancel s.sp 1#8
  have hlow : (s.push v).bus.ram.read (0x100 + (s.sp + 1#8).toNat) = s.bus.ram.read (0x100 + (s.sp + 1#8).toNat) :=
    (s.read_stack_above_push v).trans s.pull_value
  have hhigh : (s.push v).bus.ram.read (0x100 + (s.sp + 1#8 + 1#8).toNat) =
      s.bus.ram.read (0x100 + (s.sp + 1#8 + 1#8).toNat) := by
    rw [State.push_eq]
    exact Memory.read_write_other v (by bv_omega) s.bus.ram
  rw [State.pullWord_value, State.pullWord_value, State.pull_sp, State.pull_bus, State.push_sp, hsp, hlow, hhigh]

/-! ## The trap and the return from it -/

/-- What taking the trap leaves: three bytes pushed, I set, PC from the vector, which lies in PRG (R212, R225). -/
theorem State.takeTrap_eq (s : State) :
    s.takeTrap = { s with
      pc := mkWord (s.bus.peek 0xFFFF#16) (s.bus.peek 0xFFFE#16)
      sp := s.sp - 3#8
      flags := { s.flags with i := true }
      bus := { s.bus with
        ram := (((s.bus.ram.write (0x100 + s.sp.toNat) (hi (s.pc + 1#16))).write (0x100 + (s.sp - 1#8).toNat)
          (lo (s.pc + 1#16))).write (0x100 + (s.sp - 2#8).toNat) s.flags.pack) } } := by
  have hsp : s.sp - 2#8 - 1#8 = s.sp - 3#8 := sub_sub s.sp 2#8 1#8
  have hpc := s.takeTrap_pc
  rw [← Bus.peek_prg s.bus (by decide), ← Bus.peek_prg s.bus (by decide)] at hpc
  have hpushed : s.takeTrap =
      (((s.pushWord (s.pc + 1#16)).push s.flags.pack).setFlags { s.flags with i := true }).setPc s.takeTrap.pc := rfl
  rw [hpushed, hpc, State.push_eq, State.pushWord_eq, hsp]
  rfl

/-- What returning from the trap leaves: three bytes pulled, the first into the flags, the others into PC (R213, R226). -/
theorem State.returnFromTrap_eq (s : State) :
    s.returnFromTrap = { s with
      pc := mkWord (s.bus.ram.read (0x100 + (s.sp + 3#8).toNat)) (s.bus.ram.read (0x100 + (s.sp + 2#8).toNat))
      sp := s.sp + 3#8
      flags := s.flags.unpack (s.bus.ram.read (0x100 + (s.sp + 1#8).toNat)) } := by
  have hsp2 : s.sp + 1#8 + 1#8 = s.sp + 2#8 := add_assoc s.sp 1#8 1#8
  have hsp3 : s.sp + 1#8 + 2#8 = s.sp + 3#8 := add_assoc s.sp 1#8 2#8
  rw [State.returnFromTrap, State.pull_eq, State.pullWord_eq]
  dsimp only [State.setFlags, State.setPc]
  rw [hsp2, hsp3]

/-- On a canonical bus the return from the trap undoes it: from SP, RAM and B as the trap left them it restores the flags
and SP and resumes at the word pushed (R213, R226). -/
theorem State.returnFromTrap_takeTrap {s u : State} (hs : s.bus.wf = true) (hsp : u.sp = s.takeTrap.sp)
    (hram : u.bus.ram = s.takeTrap.bus.ram) (hb : u.flags.b = s.flags.b) :
    u.returnFromTrap.pc = s.pc + 1#16 ∧ u.returnFromTrap.sp = s.sp ∧ u.returnFromTrap.flags = s.flags := by
  have hw : (s.pushWord (s.pc + 1#16)).bus.wf = true := Bus.writeRam_wf _ _ (Bus.writeRam_wf _ _ hs)
  obtain ⟨hstatus, -⟩ := State.pull_push hw s.flags.pack
  obtain ⟨hword, -⟩ := State.pullWord_pushWord hs (s.pc + 1#16)
  refine ⟨?pc, ?sp, ?flags⟩
  case pc =>
    calc u.returnFromTrap.pc
      _ = u.pull.2.pullWord.1 := rfl
      _ = ((s.pushWord (s.pc + 1#16)).push s.flags.pack).pull.2.pullWord.1 :=
        State.pullWord_value_congr (congrArg (· + 1#8) hsp) hram
      _ = (s.pushWord (s.pc + 1#16)).pullWord.1 := State.pullWord_value_of_pull_push _ _
      _ = s.pc + 1#16 := hword
  case sp => rw [State.returnFromTrap_sp, hsp, State.takeTrap_sp]; simp only [BitVec.sub_add_cancel]
  case flags =>
    have hpull : u.pull.1 = s.flags.pack :=
      (State.pull_value_congr (s := (s.pushWord (s.pc + 1#16)).push s.flags.pack) hsp hram).trans hstatus
    rw [State.returnFromTrap_flags, ← State.pull_value, hpull, Flags.unpack_pack, hb]

/-- BRK takes the trap from the state in which PC has advanced (R212). -/
theorem exec_brk (s : State) : exec .brk s = .next (s.advance 1).takeTrap := rfl

/-- RTI returns from the trap, PC having advanced (R213). -/
theorem exec_rti (s : State) : exec .rti s = .next (s.advance 1).returnFromTrap := rfl

theorem State.advance_one_pc_add_one (s : State) : (s.advance 1).pc + 1#16 = s.pc + 2#16 := add_assoc s.pc 1#16 1#16

/-- A read in the mapper's range returns the PRG byte (R57), whichever read it is. -/
theorem State.read_eq_peek_of_prg (s : State) (slot : Config.ReadSlot) {a : Addr} (h : 0x8000 ≤ a.toNat) :
    s.read slot a = s.bus.peek a := by
  rw [State.read, Bus.read_prg _ _ _ h, Bus.peek_prg _ h]

/-- The transactions of BRK: the opcode read, three pushes and the two vector reads (R126, R212). -/
theorem instrTransactions_brk (s : State) :
    instrTransactions .brk s =
      opcodeTransaction s :: (pushTransactions s.sp [hi (s.pc + 2#16), lo (s.pc + 2#16), s.flags.pack] ++
        [.read 0xFFFE#16 (s.bus.peek 0xFFFE#16), .read 0xFFFF#16 (s.bus.peek 0xFFFF#16)]) := by
  rw [← State.read_eq_peek_of_prg s .vectorLow (a := 0xFFFE#16) (by decide),
    ← State.read_eq_peek_of_prg s .vectorHigh (a := 0xFFFF#16) (by decide), ← State.advance_one_pc_add_one]
  rfl

/-- Settles O53, from what the trap and the return from it leave. -/
theorem brkTakesTheTrapAndRtiReturns : Obligations.BrkTakesTheTrapAndRtiReturns := by
  refine ⟨rfl, rfl, fun s p hp => ⟨?brk, ?transactions, ?rti⟩⟩
  case brk =>
    rw [exec_brk, State.takeTrap_eq, State.advance_one_pc_add_one]
    rfl
  case transactions =>
    have hsp : s.sp - 1#8 - 1#8 = s.sp - 2#8 := sub_sub s.sp 1#8 1#8
    rw [instrTransactions_brk]
    simp only [pushTransactions, stackAddress_eq_ofNat, hsp]
    rfl
  case rti =>
    rw [exec_rti, State.returnFromTrap_eq, hp]
    rfl

/-- Settles O54: RTI undoes the trap BRK took. -/
theorem rtiResumesTwoPastBrkWithTheSavedFlags : Obligations.RtiResumesTwoPastBrkWithTheSavedFlags := by
  intro s hs
  refine ⟨_, exec_brk s, rfl, fun u hsp hram hb => ⟨_, exec_rti u, ?_⟩⟩
  have hreturn := State.returnFromTrap_takeTrap (s := s.advance 1) (u := u.advance 1) hs hsp hram hb
  rwa [State.advance_one_pc_add_one] at hreturn

/-! ## Stack, flag and no-operation instructions -/

/-- PHA pushes A (R200). -/
theorem exec_pha (s : State) : exec .pha s = .next ((s.advance 1).push s.a) := rfl

/-- PHP pushes the status byte (R201). -/
theorem exec_php (s : State) : exec .php s = .next ((s.advance 1).push s.flags.pack) := rfl

/-- PLA loads A with the byte pulled (R202). -/
theorem exec_pla (s : State) : exec .pla s = .next (loadPulled (s.advance 1).pull) := rfl

/-- PLP unpacks the byte pulled into the flags (R203). -/
theorem exec_plp (s : State) :
    exec .plp s = .next ((s.advance 1).pull.2.setFlags (s.flags.unpack (s.advance 1).pull.1)) := rfl

/-- Settles O50, from what a push and a pull leave. -/
theorem stackInstructionsPushAndPull : Obligations.StackInstructionsPushAndPull := by
  refine ⟨rfl, rfl, rfl, rfl, fun s p hp => ⟨?pha, ?php, ?pla, ?plp⟩⟩
  case pha => rw [exec_pha, State.push_eq]; rfl
  case php => rw [exec_php, State.push_eq]; rfl
  case pla => rw [exec_pla, State.pull_eq, hp]; rfl
  case plp => rw [exec_plp, State.pull_eq, hp]; rfl

/-- Settles O51: each write of a flag is evaluated. -/
theorem flagInstructionsWriteOneFlag : Obligations.FlagInstructionsWriteOneFlag :=
  ⟨rfl, fun _ => ⟨rfl, rfl, rfl, rfl, rfl, rfl, rfl⟩⟩

/-- Settles O52: NOP is evaluated. -/
theorem nopChangesPcOnly : Obligations.NopChangesPcOnly :=
  ⟨rfl, fun _ => ⟨rfl, rfl⟩⟩

end Sys2Proof.Machine
end

section
/-! PROOFS, spec/60_exceptions.md: what an instruction and a step of CORE can answer, which instructions a refused write can
end, and the faults that follow. -/

namespace Sys2Proof.Machine

/-! ## What an instruction can answer -/

theorem storedRegister_isSome_iff {m : Mnemonic} (s : State) :
    (storedRegister m s).isSome = true ↔ m ∈ [Mnemonic.sta, .stx, .sty] := by
  cases m <;> simp [storedRegister]

/-- An instruction completes unless it writes through an effective address. -/
theorem exec_next_or_writes (i : Instr) (s : State) :
    (∃ t, exec i s = .next t) ∨ ∃ m, i.operand = .mem m ∧
      ((storedRegister i.mnemonic s).isSome = true ∨ (modifyOperation i.mnemonic).isSome = true) := by
  rcases exec_cases i s with ⟨f, v, -, -, e⟩ | ⟨v, m, hv, ho, -⟩ | ⟨op, -, -, e⟩ | ⟨op, m, hop, ho, -⟩ | ⟨f, -, -, e⟩ |
    ⟨off, -, -, e⟩ | ⟨w, ⟨-, e⟩ | ⟨-, e⟩ | ⟨-, e⟩⟩
  case inr.inl => exact .inr ⟨m, ho, .inl (Option.isSome_of_eq_some hv)⟩
  case inr.inr.inr.inl => exact .inr ⟨m, ho, .inr (Option.isSome_of_eq_some hop)⟩
  all_goals exact .inl ⟨_, e⟩

/-- What an instruction can answer: it completes, or it is a store or read-modify-write whose write the mapper or an extra
device refuses, and then PC has advanced and nothing else changed (R222). -/
theorem exec_next_or_refused_write (i : Instr) (s : State) :
    (∃ t, exec i s = .next t) ∨
      ∃ m v, i.operand = .mem m ∧ (i.mnemonic ∈ [Mnemonic.sta, .stx, .sty] ∨ i.mnemonic ∈ modifiers) ∧
        ((0x8000 ≤ (m.ea s).toNat ∧ exec i s = .fault (.romWriteViolation (m.ea s) v (s.advance i.length))) ∨
          (s.bus.claimed (m.ea s) = true ∧ exec i s = .fault (.deviceError (m.ea s) v (s.advance i.length)))) := by
  rcases exec_next_or_writes i s with h | ⟨m, ho, hw⟩
  · exact .inl h
  · have hmem := hw.imp (storedRegister_isSome_iff s).1 mem_modifiers_iff.2
    obtain ⟨v, f, -, hcases⟩ := exec_write_cases i s m ho hw
    rcases hcases with ⟨-, e⟩ | ⟨ha, e⟩ | ⟨-, -, -, e⟩ | ⟨-, -, hc, e | e⟩
    · exact .inl ⟨_, e⟩
    · exact .inr ⟨m, v, ho, hmem, .inl ⟨ha, e⟩⟩
    · exact .inl ⟨_, e⟩
    · exact .inl ⟨_, e⟩
    · exact .inr ⟨m, v, ho, hmem, .inr ⟨hc, e⟩⟩

/-- A store or read-modify-write at or above 0x8000 raises `RomWriteViolation` with the byte of its write transaction
(R126, R222). -/
theorem exec_of_rom_write {i : Instr} {s : State} {m : MemOperand} (ho : i.operand = .mem m)
    (hm : i.mnemonic ∈ [Mnemonic.sta, .stx, .sty] ∨ i.mnemonic ∈ modifiers) (ha : 0x8000 ≤ (m.ea s).toNat) :
    ∃ v, exec i s = .fault (.romWriteViolation (m.ea s) v (s.advance i.length)) ∧
      .write (m.ea s) v ∈ instrTransactions i s := by
  obtain ⟨v, f, hv, hcases⟩ :=
    exec_write_cases i s m ho (hm.imp (storedRegister_of_mem · s) mem_modifiers_iff.1)
  refine ⟨v, ?_, ?_⟩
  · rcases hcases with ⟨hlt, -⟩ | ⟨-, e⟩ | ⟨-, hlt, -⟩ | ⟨-, hlt, -⟩
    · omega
    · exact e
    · omega
    · omega
  · rw [instrTransactions, ← mem_writesOf, ho]
    rcases hv with ⟨hv, -⟩ | ⟨op, hop, rfl, -⟩
    · rw [writesOf_store_form hv]
      exact List.mem_singleton_self _
    · rw [writesOf_modify_form hop (v := m.load s) rfl]
      exact List.mem_singleton_self _

/-! ## The modes that reach PRG -/

theorem zext16_lt_prg (b : Byte) : (zext16 b).toNat < 0x8000 := by
  have := b.isLt
  rw [zext16_toNat]
  omega

/-- The zero-page modes do not reach PRG. -/
theorem mode_of_prg_address {m : MemOperand} {s : State} (h : 0x8000 ≤ (m.ea s).toNat) :
    m.mode ∈ [Mode.abs, .abx, .aby, .izx, .izy] := by
  cases m with
  | zp b => exact absurd h (Nat.not_le.2 (zext16_lt_prg b))
  | zpx b => exact absurd h (Nat.not_le.2 (zext16_lt_prg (b + s.x)))
  | zpy b => exact absurd h (Nat.not_le.2 (zext16_lt_prg (b + s.y)))
  | abs _ | abx _ | aby _ | izx _ | izy _ => simp [MemOperand.mode]

theorem mode_mem_modes (i : Instr) : i.mode ∈ i.mnemonic.modes := by
  cases i <;> exact List.contains_iff_mem.1 rfl

/-- The pairs of R89 in which a store or read-modify-write reaches PRG are those R222 lists. -/
theorem romWriters_of_modes :
    ∀ m ∈ [Mnemonic.sta, .stx, .sty] ++ modifiers, ∀ mode ∈ m.modes, mode ∈ [Mode.abs, .abx, .aby, .izx, .izy] →
      (m ∈ [Mnemonic.sta, .stx, .sty] ∧ mode = .abs) ∨ (m = .sta ∧ mode ∈ [Mode.abx, .aby, .izx, .izy]) ∨
        (m ∈ modifiers ∧ mode ∈ [Mode.abs, .abx]) := by
  decide

/-! ## What a step can answer -/

/-- A step of CORE is the fault of an unassigned byte, or an instruction. -/
theorem step_illegal_or_exec (s : State) :
    (s.opcodeByte ∈ unassignedBytes ∧ step s = .fault (.illegalOpcode s.opcodeByte s.pc s)) ∨
      ∃ i, step s = exec i s := by
  rcases step_cases s with ⟨hmiss, -, hrun⟩ | ⟨i, _, -, h⟩
  · exact .inl ⟨(mem_unassignedBytes_iff _).2 hmiss, by rw [step, hrun, StepResult.outcome]⟩
  · exact .inr ⟨i, h⟩

/-- What a step of CORE can answer (R220): it completes, its byte is unassigned, or its write is refused, by the mapper or
by an extra device. -/
theorem step_answers (s : State) :
    (∃ t, step s = .next t) ∨
    (s.opcodeByte ∈ unassignedBytes ∧ step s = .fault (.illegalOpcode s.opcodeByte s.pc s)) ∨
    (∃ a v i, 0x8000 ≤ a.toNat ∧ step s = .fault (.romWriteViolation a v (s.advance (Instr.length i)))) ∨
    ∃ a v i, s.bus.claimed a = true ∧ step s = .fault (.deviceError a v (s.advance (Instr.length i))) := by
  rcases step_illegal_or_exec s with h | ⟨i, h⟩
  · exact .inr (.inl h)
  · rw [h]
    rcases exec_next_or_refused_write i s with hnext | ⟨m, v, -, -, hrom | hdevice⟩
    · exact .inl hnext
    · exact .inr (.inr (.inl ⟨_, v, i, hrom⟩))
    · exact .inr (.inr (.inr ⟨_, v, i, hdevice⟩))

/-- A step that faults returns no count (R106). -/
theorem stepCycles_of_fault {s : State} {f : Fault} (h : step s = .fault f) : stepCycles s = none := by
  rw [step] at h
  rw [stepCycles]
  cases hr : runStep .core s <;> rw [hr] at h <;> cases h
  rfl

/-- An entry outside IMPLEMENTED ends the step with nothing changed (R102, R223). -/
theorem runStep_of_not_implemented {p : Params} {s : State} {e : Entry} (h : p.table.lookup s.opcodeByte = some e)
    (hm : e.mnemonic ∉ p.implemented) :
    runStep p s = .fault (.notImplemented s.opcodeByte e.mnemonic s.pc s) := by
  simp only [runStep, h, List.contains_iff_mem, if_neg hm]

/-! ## The faults by name -/

/-- Settles O6: `NotImplemented` is the fault of an entry outside IMPLEMENTED, and none of the answers of CORE's step. -/
theorem notImplementedEntryFaultsWithStateUnchanged : Obligations.NotImplementedEntryFaultsWithStateUnchanged := by
  refine ⟨fun _ _ _ => runStep_of_not_implemented, fun s left op m pc0 h => ?_⟩
  rcases step_answers s with ⟨_, e⟩ | ⟨-, e⟩ | ⟨_, _, _, -, e⟩ | ⟨_, _, _, -, e⟩ <;> rw [h] at e <;> cases e

/-- Settles O9: without extra devices no write is refused but the mapper's. -/
theorem everyStepCompletesOrFaultsByName : Obligations.EveryStepCompletesOrFaultsByName := by
  refine ⟨fun s hs => ?_, fun s r h => ?_⟩
  · rcases step_answers s with hnext | hillegal | hrom | ⟨a, _, _, hc, -⟩
    · exact .inl hnext
    · exact .inr (.inl hillegal)
    · exact .inr (.inr hrom)
    · rw [Bus.claimed_of_extra_nil hs] at hc
      cases hc
  · rcases step_answers s with ⟨_, e⟩ | ⟨-, e⟩ | ⟨_, _, _, -, e⟩ | ⟨_, _, _, -, e⟩ <;> rw [h] at e <;> cases e

/-- Settles O10: a write the mapper refuses is one of a store or read-modify-write in a mode that reaches PRG, made when
only PC has advanced. -/
theorem romWriteViolationChangesPcOnly : Obligations.RomWriteViolationChangesPcOnly := by
  refine ⟨fun i s left a v h => ?_, fun i s m ho hm ha => ?_, fun _ _ _ _ => stepCycles_of_fault, fun s a v ha => ?_⟩
  · rcases exec_next_or_refused_write i s with ⟨_, e⟩ | ⟨m, _, ho, hm, ⟨ha, e⟩ | ⟨-, e⟩⟩ <;> rw [h] at e <;> cases e
    have hmode : i.mode = m.mode := by rw [Instr.mode, ho, Operand.mode]
    have hpc : (s.advance i.length).pc.toNat = (s.pc.toNat + i.length) % 65536 := by
      rw [State.advance_pc, BitVec.toNat_add, BitVec.toNat_ofNat, Nat.add_mod_mod]
    have hwriter := romWriters_of_modes _ (List.mem_append.2 hm) _ (mode_mem_modes i) (hmode ▸ mode_of_prg_address ha)
    exact ⟨ha, hwriter, hpc, rfl, rfl, rfl, rfl, rfl, rfl⟩
  · obtain ⟨v, h, hwrite⟩ := exec_of_rom_write ho hm ha
    exact ⟨v, _, h, hwrite⟩
  · obtain ⟨-, hrom, -⟩ := State.write_writesByte { s with tick := s.tick + 1 } a v
    exact ⟨_, hrom ha, rfl⟩

end Sys2Proof.Machine
end

section
/-! PROOFS, spec/70_reset_and_hazards.md: the reset vector is read from PRG, whatever RAM holds and whatever devices there
are, and what reset leaves. -/

namespace Sys2Proof.Machine

/-! ## The invariant at reset -/

/-- Settles O11: the arrays of the blank cartridge and of RAM are canonical, and reset sets B (R241). -/
theorem resetMeetsTheInvariant : Obligations.ResetMeetsTheInvariant := by
  obtain ⟨hram, hprg⟩ := State.reset_arrays_wf
  have hcart : State.reset.bus.cart.wf = true := Bool.and_eq_true_iff.2 ⟨hprg, rfl⟩
  exact ⟨Bool.and_eq_true_iff.2 ⟨hram, hcart⟩, rfl⟩

/-! ## The reset vector -/

/-- The mapper answers both reads of reset, before any extra device (R42, R43). -/
theorem resetTransactions_eq (b : Bus) :
    resetTransactions b = [.read 0xFFFC#16 (b.cart.readPrg 0xFFFC#16), .read 0xFFFD#16 (b.cart.readPrg 0xFFFD#16)] := by
  rw [← b.read_prg 0 .vectorLow (a := 0xFFFC#16) (by decide), ← b.read_prg 0 .vectorHigh (a := 0xFFFD#16) (by decide)]
  rfl

/-- The word at 0xFFFC, low byte first (R242). -/
theorem State.powerOn_pc_toNat (cart : Cartridge) (ramInit : Memory) (extra : List ExtraDevice) :
    (State.powerOn cart ramInit extra).pc.toNat =
      (cart.readPrg 0xFFFC#16).toNat + 256 * (cart.readPrg 0xFFFD#16).toNat := by
  have hlow := Bus.read_prg ⟨ramInit, cart, extra⟩ 0 .vectorLow (a := 0xFFFC#16) (by decide)
  have hhigh := Bus.read_prg ⟨ramInit, cart, extra⟩ 0 .vectorHigh (a := 0xFFFD#16) (by decide)
  calc (State.powerOn cart ramInit extra).pc.toNat
      = (mkWord (cart.readPrg 0xFFFD#16) (cart.readPrg 0xFFFC#16)).toNat := by rw [← hlow, ← hhigh]; rfl
    _ = _ := by rw [mkWord_toNat, Nat.add_comm, Nat.mul_comm]

/-- Settles O21: the registers and flags are the constants of R241, and PC is the vector that the two reads return. -/
theorem resetLeavesTheStatedValues : Obligations.ResetLeavesTheStatedValues := by
  rintro cart ramInit extra _ rfl
  have hpack : Flags.reset.pack = 0x34#8 := by decide
  have hpc := State.powerOn_pc_toNat cart ramInit extra
  refine ⟨rfl, rfl, rfl, rfl, rfl, rfl, rfl, rfl, rfl, rfl, rfl, hpack, rfl, ?reads, ?oneBank, ?twoBanks⟩
  case reads => exact ⟨_, _, resetTransactions_eq _, hpc⟩
  case oneBank =>
    intro hone
    rw [hpc, Cartridge.readPrg_one hone (by decide), Cartridge.readPrg_one hone (by decide)]
    rfl
  case twoBanks =>
    intro htwo
    rw [hpc, Cartridge.readPrg_two htwo (by decide), Cartridge.readPrg_two htwo (by decide)]
    rfl

end Sys2Proof.Machine
end
